-- ==== Sys2Proof/Word.lean ====
section
/-! DEFINITION. The machine's word, byte and register number (00_scope.md section 5, 20_memory.md R87). -/

namespace Sys2Proof

/-- A 32-bit word (20_memory.md R87). -/
abbrev Word := BitVec 32

/-- An 8-bit byte (20_memory.md R80). -/
abbrev Byte := BitVec 8

/-- A register number, R0 to R15 of the current mode (10_state.md R21). -/
abbrev Reg := BitVec 4

end Sys2Proof
end

