-- ==== Sys2Proof/Config.lean ====
section
/-! DEFINITION. What the spec leaves open and no rule may depend on: constants without a body. -/

namespace Sys2Proof

/-- The free value number `n` of a run (00_scope.md section 6.1, `DRAW`): nothing is known of any of them. The machine
reads it at its own counter `draws`, so that two draws need not agree. -/
opaque Config.freeWord : Nat → Word

/-- Whether STR and STM of R15 store the instruction's address plus 12 (else plus 8): `PC_STORE_OFFSET`, which
92_eei_decisions.md D4 leaves OPEN (45_single_data_transfer.md R300). -/
opaque Config.pcStorePlus12 : Bool

end Sys2Proof
end

