-- ==== Sys2Proof/Machine/Memory.lean ====
section
/-! DEFINITION. Memory as one canonical list of cells (20_memory.md R80, R96). A cell's address is the number of a byte
lane: cell `4 * k + j` is bits `8 * j + 7` to `8 * j` of the word at address `4 * k`, whatever the byte order
(20_memory.md R86, word invariance). -/

namespace Sys2Proof.Machine

/-- Memory: the cells that differ from what an unlisted cell reads as, at strictly rising addresses. -/
abbrev Memory := List Host.Cell

/-- What an unlisted cell reads as: the spec gives no contents after power-up (20_memory.md R96). DESIGN CHOICE, log 5,
unsafe: a proof can lean on this zero. -/
def Memory.unlisted : Byte := 0#8

/-- The byte in cell `a`. -/
def Memory.read : Memory → Nat → Byte
  | [], _ => Memory.unlisted
  | (b, v) :: t, a => if a = b then v else Memory.read t a

/-- Cell `a` set to `v`, keeping the canonical form: a cell that holds what an unlisted one reads as is not listed. -/
def Memory.write : Memory → Nat → Byte → Memory
  | [], a, v => if v = Memory.unlisted then [] else [(a, v)]
  | (b, x) :: t, a, v =>
    if b < a then (b, x) :: Memory.write t a v
    else if b = a then (if v = Memory.unlisted then t else (a, v) :: t)
    else (if v = Memory.unlisted then (b, x) :: t else (a, v) :: (b, x) :: t)

/-- The list is canonical from address `lo` on: rising, inside the address space, nothing listed that need not be. -/
def Memory.wfFrom : Nat → Memory → Bool
  | _, [] => true
  | lo, (a, v) :: t =>
    decide (lo ≤ a) && decide (a < 2 ^ 32) && decide (v ≠ Memory.unlisted) && Memory.wfFrom (a + 1) t

/-- The canonical form. -/
def Memory.wf (m : Memory) : Bool := Memory.wfFrom 0 m

/-- The two cells from `lo` on, the lower lane the less significant (20_memory.md R84). -/
def Memory.readHalf (m : Memory) (lo : Nat) : BitVec 16 := m.read (lo + 1) ++ m.read lo

/-- The four cells from `lo` on, the lowest lane the least significant (20_memory.md R82). -/
def Memory.readWord (m : Memory) (lo : Nat) : Word :=
  m.read (lo + 3) ++ m.read (lo + 2) ++ m.read (lo + 1) ++ m.read lo

/-- Two cells set from `lo` on (20_memory.md R91). -/
def Memory.writeHalf (m : Memory) (lo : Nat) (v : BitVec 16) : Memory :=
  (m.write lo (v.extractLsb' 0 8)).write (lo + 1) (v.extractLsb' 8 8)

/-- Four cells set from `lo` on (20_memory.md R91). -/
def Memory.writeWord (m : Memory) (lo : Nat) (v : Word) : Memory :=
  (((m.write lo (v.extractLsb' 0 8)).write (lo + 1) (v.extractLsb' 8 8)).write (lo + 2)
    (v.extractLsb' 16 8)).write (lo + 3) (v.extractLsb' 24 8)

/-- The cell of the byte at `a`: lane `a mod 4`, or `3 - (a mod 4)` when big-endian (20_memory.md R84, R86). -/
def byteCell (bigEndian : Bool) (a : Word) : Nat := (if bigEndian then a ^^^ 3#32 else a).toNat

/-- The first cell of the half-word at `a`, a multiple of 2 (20_memory.md R84, R86). -/
def halfCell (bigEndian : Bool) (a : Word) : Nat := (if bigEndian then a ^^^ 2#32 else a).toNat

/-- The first cell of the word at `a`, a multiple of 4: the same under either byte order (20_memory.md R86). -/
def wordCell (a : Word) : Nat := a.toNat

end Sys2Proof.Machine
end

