-- ==== Sys2Proof/Machine/Platform.lean ====
section
/-! DEFINITION. The parameters of the model that the spec leaves to the platform and the part (00_scope.md section 5),
as constant data of the state, so that a statement over all states holds for every value of them. -/

namespace Sys2Proof.Machine

/-- What stands at an address (00_scope.md section 5, `MemoryMap`). -/
inductive RegionKind where
  | ram | rom | device
  deriving DecidableEq, Repr

/-- `size` bytes from physical address `base` on. -/
structure Region where
  base : Nat
  size : Nat
  kind : RegionKind
  deriving DecidableEq, Repr

/-- What an MCR to c8 does (10_state.md R69). -/
inductive TlbOp where
  | whole | entry
  deriving DecidableEq, Repr

/-- One row of `CP15_C8_OPS`: the operation of a CRm and an opcode_2 (10_state.md R69). -/
structure C8Op where
  crm : BitVec 4
  op2 : BitVec 3
  op  : TlbOp
  deriving DecidableEq, Repr

/-- One row of `CP15_C7_OPS` (10_state.md R68). -/
structure C7Op where
  crm : BitVec 4
  op2 : BitVec 3
  deriving DecidableEq, Repr

/-- The parameters of 00_scope.md section 5 that hold data. -/
structure Platform where
  /-- `MemoryMap`: the first region that holds an address decides; an address in none does not exist. -/
  regions : List Region
  /-- `CP15_ID` (10_state.md R62). -/
  cp15Id : Word
  /-- `CP15_C7_OPS` (10_state.md R68). -/
  c7Ops : List C7Op
  /-- `CP15_C8_OPS` (10_state.md R69). -/
  c8Ops : List C8Op
  /-- `NV_BEHAVIOUR` = never-execute (30_encoding.md R160); else an instruction with that condition is refused. -/
  nvNeverExecutes : Bool
  deriving DecidableEq, Repr

/-- The whole address space as RAM: the spec leaves the map to the platform (20_memory.md R100). DESIGN CHOICE, log 6. -/
def Platform.defaultRegions : List Region := [{ base := 0, size := 2 ^ 32, kind := .ram }]

/-- The cache operation the spec recalls: CRm c7, opcode_2 0, invalidate all (10_state.md R68). PRESUMED, log 8. -/
def Platform.defaultC7Ops : List C7Op := [{ crm := 7#4, op2 := 0#3 }]

/-- The TLB operations the spec recalls: CRm c7, opcode_2 0 whole, 1 single entry (10_state.md R69). PRESUMED, log 8. -/
def Platform.defaultC8Ops : List C8Op :=
  [{ crm := 7#4, op2 := 0#3, op := .whole }, { crm := 7#4, op2 := 1#3, op := .entry }]

/-- The parameters of the state after reset: the spec's defaults where it gives one (00_scope.md section 5; the ID as
10_state.md R62 recalls it and 49_coprocessor_undefined.md R396 writes it: PRESUMED, log 7; NV refused: log 9). -/
def Platform.default : Platform where
  regions := Platform.defaultRegions
  cp15Id := 0x41018100#32
  c7Ops := Platform.defaultC7Ops
  c8Ops := Platform.defaultC8Ops
  nvNeverExecutes := false

/-- The first region that holds byte `a`. -/
def regionKindAt : List Region → Nat → Option RegionKind
  | [], _ => none
  | r :: t, a => if r.base ≤ a ∧ a < r.base + r.size then some r.kind else regionKindAt t a

/-- What an access to the `n` bytes from `a` on meets: nothing where a byte does not exist, else a device where one byte
is a device's, else ROM where one byte is ROM, else RAM (20_memory.md R90 step 3, R91, R97). -/
def accessKindAt (rs : List Region) (a : Nat) : Nat → Option RegionKind
  | 0 => some .ram
  | n + 1 =>
    match accessKindAt rs a n, regionKindAt rs (a + n) with
    | some .device, some _ => some .device
    | some _, some .device => some .device
    | some .rom, some _ => some .rom
    | some _, some .rom => some .rom
    | some .ram, some .ram => some .ram
    | _, _ => none

end Sys2Proof.Machine
end

