-- ==== Sys2Proof/Machine/State.lean ====
section
/-! DEFINITION. The state of the machine, its faults and refusals, and the state after reset (10_state.md;
70_reset_and_hazards.md R490). Beside the state: one named update for each field. -/

namespace Sys2Proof.Machine

/-- The seven modes (10_state.md R44). -/
inductive Mode where
  | usr | fiq | irq | svc | abt | und | sys
  deriving DecidableEq, Repr

/-- The condition code flags (10_state.md R42). -/
structure Flags where
  n : Bool
  z : Bool
  c : Bool
  v : Bool
  deriving DecidableEq, Repr

/-- The fields of the CPSR (10_state.md R41); its mode bits always hold one of the seven modes (R45). -/
structure Cpsr where
  flags : Flags
  i     : Bool
  f     : Bool
  mode  : Mode
  deriving DecidableEq, Repr

/-- The fields of an SPSR: its mode bits are stored as written (43_psr_transfer.md R254, corner case 2). -/
structure Spsr where
  flags : Flags
  i     : Bool
  f     : Bool
  m     : BitVec 5
  deriving DecidableEq, Repr

/-- The five SPSRs (10_state.md R40). -/
structure Spsrs where
  fiq : Spsr
  irq : Spsr
  svc : Spsr
  abt : Spsr
  und : Spsr
  deriving DecidableEq, Repr

/-- The 30 physical general registers beside R15 (10_state.md R23). -/
structure Regs where
  r0 : Word
  r1 : Word
  r2 : Word
  r3 : Word
  r4 : Word
  r5 : Word
  r6 : Word
  r7 : Word
  r8Usr : Word
  r9Usr : Word
  r10Usr : Word
  r11Usr : Word
  r12Usr : Word
  r8Fiq : Word
  r9Fiq : Word
  r10Fiq : Word
  r11Fiq : Word
  r12Fiq : Word
  r13Usr : Word
  r14Usr : Word
  r13Fiq : Word
  r14Fiq : Word
  r13Irq : Word
  r14Irq : Word
  r13Svc : Word
  r14Svc : Word
  r13Abt : Word
  r14Abt : Word
  r13Und : Word
  r14Und : Word
  deriving DecidableEq, Repr

/-- The names of the 30 physical general registers (10_state.md R23). -/
inductive PReg where
  | r0 | r1 | r2 | r3 | r4 | r5 | r6 | r7
  | r8Usr | r9Usr | r10Usr | r11Usr | r12Usr | r8Fiq | r9Fiq | r10Fiq
  | r11Fiq | r12Fiq | r13Usr | r14Usr | r13Fiq | r14Fiq | r13Irq | r14Irq
  | r13Svc | r14Svc | r13Abt | r14Abt | r13Und | r14Und
  deriving DecidableEq, Repr

/-- The bits of the CP15 control register that the spec names and gives an effect or a reset value (10_state.md R63). -/
structure Control where
  m : Bool
  a : Bool
  c : Bool
  w : Bool
  b : Bool
  s : Bool
  r : Bool
  z : Bool
  deriving DecidableEq, Repr

/-- The stored registers of CP15 (10_state.md R61 to R71). -/
structure Cp15 where
  /-- c1 (R63). -/
  control : Control
  /-- c2, bits 31:14 (R64). -/
  ttb : BitVec 18
  /-- c3 (R65). -/
  dac : Word
  /-- c5, bits 3:0 (R66). -/
  fsrStatus : BitVec 4
  /-- c5, bits 7:4 (R66). -/
  fsrDomain : BitVec 4
  /-- c6 (R67). -/
  far : Word
  /-- c9 (R70). -/
  cacheLockdown : Word
  /-- c10 (R70). -/
  tlbLockdown : Word
  /-- c15 (R71). -/
  testClock : Word
  deriving DecidableEq, Repr

/-- The bytes from `first` to `last` that an IMBRange names (48_swap_swi_imb.md R381). -/
structure AddrRange where
  first : Word
  last  : Word
  deriving DecidableEq, Repr

/-- A word of memory written since the last IMB: its physical address, and the addresses that an IMBRange has covered since
the write (20_memory.md R114; 48_swap_swi_imb.md R381, R382; log 22). -/
structure StaleWord where
  pa      : Word
  covered : List AddrRange
  deriving DecidableEq, Repr

/-- What a translation maps: a 1MB section, a 64KB or a 4KB page (20_memory.md R102, R103). -/
inductive MapSize where
  | sectionMap | large | small
  deriving DecidableEq, Repr

/-- One cached translation: a virtual address it was made for and the descriptors the walk read (10_state.md R78). For a
section `l2` is not used and holds 0. -/
structure TlbEntry where
  size : MapSize
  va   : Word
  l1   : Word
  l2   : Word
  deriving DecidableEq, Repr

/-- A mapping of addresses that an instruction has changed since the last IMB: what translated before the change (the MMU
bit, the table base, the TLB, and memory, which holds the tables), and the addresses that an IMBRange has covered since
(48_swap_swi_imb.md R383; 70_reset_and_hazards.md R505; log 50). -/
structure OldMapping where
  m       : Bool
  ttb     : BitVec 18
  tlb     : List TlbEntry
  mem     : Memory
  covered : List AddrRange
  deriving DecidableEq, Repr

/-- The kinds of access (20_memory.md R90 to R92); `lockedRead` is the read of a swap, which goes to external memory and
not to the cache (48_swap_swi_imb.md R371). -/
inductive AccessKind where
  | read | write | fetch | lockedRead
  deriving DecidableEq, Repr

/-- One access that the ABORT input fails: `AbortOracle` holds of it (20_memory.md R90, R94). The read of a swap is a
`read` here. -/
structure AbortedAccess where
  addr : Word
  size : Nat
  kind : AccessKind
  deriving DecidableEq, Repr

/-- The inputs of one step: the two synchronised interrupt levels (true: asserted, the pin is LOW), a reset, and the
physical accesses that the memory system aborts (60_exceptions.md R451; 70_reset_and_hazards.md R490; log 16, log 17). -/
structure Inputs where
  fiqLine : Bool
  irqLine : Bool
  reset   : Bool
  aborts  : List AbortedAccess
  deriving DecidableEq, Repr

/-- The machine. -/
structure State where
  /-- The 30 general registers beside the PC (10_state.md R23). -/
  regs : Regs
  /-- The address of the instruction to execute; R15 (10_state.md R30, R35). -/
  pc : Word
  /-- The current program status register (10_state.md R40). -/
  cpsr : Cpsr
  /-- The five saved program status registers (10_state.md R40). -/
  spsr : Spsrs
  /-- The system control coprocessor (10_state.md R60 to R72). -/
  cp15 : Cp15
  /-- The bytes of the address space (20_memory.md R80). -/
  mem : Memory
  /-- The words written since the last covering IMB (20_memory.md R114). -/
  stale : List StaleWord
  /-- The mappings changed since the last covering IMB (48_swap_swi_imb.md R383). -/
  oldMaps : List OldMapping
  /-- The cached translations (10_state.md R78). -/
  tlb : List TlbEntry
  /-- The instruction executed last was a completed User-bank LDM (70_reset_and_hazards.md R506). -/
  bankHazard : Bool
  /-- The inputs of the coming steps, the next first; none listed reads as quiet inputs (log 16). -/
  env : List Inputs
  /-- The parameters (00_scope.md section 5). -/
  plat : Platform
  /-- How many free values have been drawn: the model's own counter (log 45). -/
  draws : Nat
  deriving DecidableEq, Repr

/-- Why the machine stops with a fault. -/
inductive Fault where
  /-- An access met an address that the memory map does not have: raised by every access (20_memory.md R90 step 3;
  93_implementation_defined.md U37). Safe: no next state is claimed. -/
  | unmapped
  /-- An instruction was fetched from a word written since the last covering IMB: raised by the fetch, as the spec says the
  model does (20_memory.md R114; 92_eei_decisions.md D9; 93_implementation_defined.md U50). Safe: the spec does not
  determine which word is executed. -/
  | staleInstruction
  deriving DecidableEq, Repr

/-- Why the model refuses a step. Every one is safe: no next state is claimed where the spec gives none. -/
inductive Refusal where
  /-- An instruction without a meaning yet: raised by the dispatch only. -/
  | notModelled (mnemonic : String)
  /-- Condition field 0b1111: raised by the fetch (30_encoding.md R160, D5). -/
  | nvCondition
  /-- A should-be-zero or should-be-one field is violated: raised by the fetch (30_encoding.md R161). -/
  | shouldBeViolated
  /-- An unallocated encoding: raised by the fetch (30_encoding.md R162). -/
  | unallocatedEncoding
  /-- R15 in a data-processing instruction with a register-specified shift: raised by those (42_data_processing.md R211). -/
  | r15WithRegisterShift
  /-- The SPSR of User or System mode: raised by MRS, MSR, data processing with S and Rd = 15 (10_state.md R49). -/
  | noSpsr
  /-- A mode value outside the table of modes would reach the CPSR: raised by MSR and by returns (10_state.md R45). -/
  | badMode
  /-- R15 as the register operand of MRS, MSR or MCR: raised by those (43_psr_transfer.md R251, R252;
  49_coprocessor_undefined.md R392). -/
  | r15Operand
  /-- Operands a multiply may not have: raised by the multiplies (44_multiply.md R271). -/
  | multiplyOperands
  /-- Operands a single transfer may not have: raised by LDR, STR and their forms (45_single_data_transfer.md R293). -/
  | transferOperands
  /-- Operands a halfword transfer may not have: raised by those (46_halfword_signed_transfer.md R323 a to d). -/
  | halfwordOperands
  /-- Operands a block transfer may not have: raised by LDM and STM (47_block_data_transfer.md R342 a to d, f). -/
  | blockOperands
  /-- LDM or STM with S set in User or System mode: raised by those (47_block_data_transfer.md R342 e). -/
  | userBlockMode
  /-- Operands a swap may not have: raised by SWP and SWPB (48_swap_swi_imb.md R370). -/
  | swapOperands
  /-- A half-word access to an odd address with alignment checking off: raised by LDRH, STRH, LDRSH
  (46_halfword_signed_transfer.md R323 e). -/
  | misalignedHalfword
  /-- A load of R15 from a misaligned address with alignment checking off: raised by LDR and LDM
  (45_single_data_transfer.md R299; 93_implementation_defined.md U33). -/
  | misalignedPcLoad
  /-- A word loaded into R15 whose bits 1:0 are not zero: raised by LDR and LDM (10_state.md R32, D25). -/
  | pcLowBits
  /-- A branch target outside 0 to 0xFFFFFFFC: raised by B and BL (41_branch.md R191). -/
  | branchWraps
  /-- Sequential execution past 0xFFFFFFFC: raised by every instruction that does not write R15 (10_state.md R34). -/
  | noSuccessor
  /-- A block transfer that crosses from 0xFFFFFFFC to 0: raised by LDM and STM (47_block_data_transfer.md R342 g). -/
  | transferWraps
  /-- A descriptor with bits 1:0 = 0b11: raised by the table walk (20_memory.md R102, R103). -/
  | reservedDescriptor
  /-- Access permission 00 with S = R = 1: raised by the permission check (20_memory.md R104). -/
  | reservedPermission
  /-- A reserved CP15 register, a read of a write-only one or a write of a read-only one: raised by MRC and MCR
  (10_state.md R61, R70, R71). -/
  | cp15Register
  /-- A cache or TLB operation outside the platform's tables: raised by MCR (10_state.md R68, R69). -/
  | cp15Operation
  /-- An access to a device region, whose behaviour is the platform's: raised by every access (20_memory.md R97). -/
  | deviceAccess
  /-- An instruction fetched from an address whose translation has changed since the last covering IMB: raised by the fetch
  (48_swap_swi_imb.md R383; 70_reset_and_hazards.md R505; 93_implementation_defined.md U51; log 50). -/
  | mappingChanged
  /-- A banked register named by the instruction after a User-bank LDM: raised by the step (70_reset_and_hazards.md
  R506). -/
  | bankedAfterUserLdm
  deriving DecidableEq, Repr

/-- What an instruction, and a step, answers. -/
abbrev Result := Host.Outcome State Fault Refusal

/-- The state with another `regs`. -/
def State.withRegs (s : State) (x : Regs) : State := { s with regs := x }

/-- The state with another `pc`. -/
def State.withPc (s : State) (x : Word) : State := { s with pc := x }

/-- The state with another `cpsr`. -/
def State.withCpsr (s : State) (x : Cpsr) : State := { s with cpsr := x }

/-- The state with another `spsr`. -/
def State.withSpsr (s : State) (x : Spsrs) : State := { s with spsr := x }

/-- The state with another `cp15`. -/
def State.withCp15 (s : State) (x : Cp15) : State := { s with cp15 := x }

/-- The state with another `mem`. -/
def State.withMem (s : State) (x : Memory) : State := { s with mem := x }

/-- The state with another `stale`. -/
def State.withStale (s : State) (x : List StaleWord) : State := { s with stale := x }

/-- The state with another `oldMaps`. -/
def State.withOldMaps (s : State) (x : List OldMapping) : State := { s with oldMaps := x }

/-- The state with another `tlb`. -/
def State.withTlb (s : State) (x : List TlbEntry) : State := { s with tlb := x }

/-- The state with another `bankHazard`. -/
def State.withBankHazard (s : State) (x : Bool) : State := { s with bankHazard := x }

/-- The state with another `env`. -/
def State.withEnv (s : State) (x : List Inputs) : State := { s with env := x }

/-- The state with another `plat`. -/
def State.withPlat (s : State) (x : Platform) : State := { s with plat := x }

/-- The state with another `draws`. -/
def State.withDraws (s : State) (x : Nat) : State := { s with draws := x }

/-- No flag set. -/
def Flags.none : Flags := { n := false, z := false, c := false, v := false }

/-- The value the model names for an SPSR after reset, where the spec gives none (10_state.md R50). DESIGN CHOICE, log 2. -/
def Spsr.atReset : Spsr := { flags := Flags.none, i := false, f := false, m := 0#5 }

/-- The registers after reset: the spec gives none of them a value (10_state.md R29). DESIGN CHOICE, log 1. -/
def Regs.atReset : Regs where
  r0 := 0#32
  r1 := 0#32
  r2 := 0#32
  r3 := 0#32
  r4 := 0#32
  r5 := 0#32
  r6 := 0#32
  r7 := 0#32
  r8Usr := 0#32
  r9Usr := 0#32
  r10Usr := 0#32
  r11Usr := 0#32
  r12Usr := 0#32
  r8Fiq := 0#32
  r9Fiq := 0#32
  r10Fiq := 0#32
  r11Fiq := 0#32
  r12Fiq := 0#32
  r13Usr := 0#32
  r14Usr := 0#32
  r13Fiq := 0#32
  r14Fiq := 0#32
  r13Irq := 0#32
  r14Irq := 0#32
  r13Svc := 0#32
  r14Svc := 0#32
  r13Abt := 0#32
  r14Abt := 0#32
  r13Und := 0#32
  r14Und := 0#32

/-- The control register after reset: M, C, W by 10_state.md R72; A, B, S, R, Z by R63 (PRESUMED there, log 4). -/
def Control.atReset : Control :=
  { m := false, a := false, c := false, w := false, b := false, s := false, r := false, z := false }

/-- CP15 after reset: all but the control register without a value in the spec (10_state.md R64 to R71). DESIGN CHOICE,
log 3, log 44. -/
def Cp15.atReset : Cp15 where
  control := Control.atReset
  ttb := 0#18
  dac := 0#32
  fsrStatus := 0#4
  fsrDomain := 0#4
  far := 0#32
  cacheLockdown := 0#32
  tlbLockdown := 0#32
  testClock := 0#32

/-- The machine right after reset (70_reset_and_hazards.md R490, R491; 10_state.md section 7): Supervisor mode, both
interrupts disabled, pc at the Reset vector, MMU, cache and write buffer off. The flags are without a value in the spec
(10_state.md R50): DESIGN CHOICE, log 2. -/
def State.reset : State where
  regs := Regs.atReset
  pc := 0#32
  cpsr := { flags := Flags.none, i := true, f := true, mode := .svc }
  spsr := { fiq := .atReset, irq := .atReset, svc := .atReset, abt := .atReset, und := .atReset }
  cp15 := Cp15.atReset
  mem := []
  stale := []
  oldMaps := []
  tlb := []
  bankHazard := false
  env := []
  plat := Platform.default
  draws := 0

end Sys2Proof.Machine
end

