-- ==== Sys2Proof/Machine/Registers.lean ====
section
/-! DEFINITION. The register file: which physical register a number names in each mode, and the one place where
registers are read and written (10_state.md R23 to R32). -/

namespace Sys2Proof.Machine

/-- The contents of a physical register. -/
def Regs.get (r : Regs) : PReg → Word
  | .r0 => r.r0
  | .r1 => r.r1
  | .r2 => r.r2
  | .r3 => r.r3
  | .r4 => r.r4
  | .r5 => r.r5
  | .r6 => r.r6
  | .r7 => r.r7
  | .r8Usr => r.r8Usr
  | .r9Usr => r.r9Usr
  | .r10Usr => r.r10Usr
  | .r11Usr => r.r11Usr
  | .r12Usr => r.r12Usr
  | .r8Fiq => r.r8Fiq
  | .r9Fiq => r.r9Fiq
  | .r10Fiq => r.r10Fiq
  | .r11Fiq => r.r11Fiq
  | .r12Fiq => r.r12Fiq
  | .r13Usr => r.r13Usr
  | .r14Usr => r.r14Usr
  | .r13Fiq => r.r13Fiq
  | .r14Fiq => r.r14Fiq
  | .r13Irq => r.r13Irq
  | .r14Irq => r.r14Irq
  | .r13Svc => r.r13Svc
  | .r14Svc => r.r14Svc
  | .r13Abt => r.r13Abt
  | .r14Abt => r.r14Abt
  | .r13Und => r.r13Und
  | .r14Und => r.r14Und

/-- A physical register set to `v`. -/
def Regs.set (r : Regs) (p : PReg) (v : Word) : Regs :=
  match p with
  | .r0 => { r with r0 := v }
  | .r1 => { r with r1 := v }
  | .r2 => { r with r2 := v }
  | .r3 => { r with r3 := v }
  | .r4 => { r with r4 := v }
  | .r5 => { r with r5 := v }
  | .r6 => { r with r6 := v }
  | .r7 => { r with r7 := v }
  | .r8Usr => { r with r8Usr := v }
  | .r9Usr => { r with r9Usr := v }
  | .r10Usr => { r with r10Usr := v }
  | .r11Usr => { r with r11Usr := v }
  | .r12Usr => { r with r12Usr := v }
  | .r8Fiq => { r with r8Fiq := v }
  | .r9Fiq => { r with r9Fiq := v }
  | .r10Fiq => { r with r10Fiq := v }
  | .r11Fiq => { r with r11Fiq := v }
  | .r12Fiq => { r with r12Fiq := v }
  | .r13Usr => { r with r13Usr := v }
  | .r14Usr => { r with r14Usr := v }
  | .r13Fiq => { r with r13Fiq := v }
  | .r14Fiq => { r with r14Fiq := v }
  | .r13Irq => { r with r13Irq := v }
  | .r14Irq => { r with r14Irq := v }
  | .r13Svc => { r with r13Svc := v }
  | .r14Svc => { r with r14Svc := v }
  | .r13Abt => { r with r13Abt := v }
  | .r14Abt => { r with r14Abt := v }
  | .r13Und => { r with r13Und := v }
  | .r14Und => { r with r14Und := v }

/-- R13 of each mode (10_state.md R24, row 13). -/
def Mode.bank13 : Mode → PReg
  | .usr => .r13Usr | .sys => .r13Usr | .fiq => .r13Fiq | .irq => .r13Irq | .svc => .r13Svc | .abt => .r13Abt
  | .und => .r13Und

/-- R14 of each mode (10_state.md R24, row 14). -/
def Mode.bank14 : Mode → PReg
  | .usr => .r14Usr | .sys => .r14Usr | .fiq => .r14Fiq | .irq => .r14Irq | .svc => .r14Svc | .abt => .r14Abt
  | .und => .r14Und

/-- The physical register that number `n` names in mode `m`; none for R15, the PC (10_state.md R24, R25, R26). -/
def Mode.bank (m : Mode) (n : Reg) : Option PReg :=
  match n.toNat with
  | 0 => some .r0
  | 1 => some .r1
  | 2 => some .r2
  | 3 => some .r3
  | 4 => some .r4
  | 5 => some .r5
  | 6 => some .r6
  | 7 => some .r7
  | 8 => some (if m = .fiq then .r8Fiq else .r8Usr)
  | 9 => some (if m = .fiq then .r9Fiq else .r9Usr)
  | 10 => some (if m = .fiq then .r10Fiq else .r10Usr)
  | 11 => some (if m = .fiq then .r11Fiq else .r11Usr)
  | 12 => some (if m = .fiq then .r12Fiq else .r12Usr)
  | 13 => some m.bank13
  | 14 => some m.bank14
  | _ => none

/-- Bits 1:0 cleared: what R15 holds (10_state.md R30). -/
def wordAligned (v : Word) : Word := v &&& 0xFFFFFFFC#32

/-- R15 read as an operand: the instruction's address plus 8, bits 1:0 zero (10_state.md R31). -/
def State.readPc (s : State) : Word := wordAligned (s.pc + 8#32)

/-- Register `n` as mode `m` sees it; R15 reads as R31 says. -/
def State.readRegOf (s : State) (m : Mode) (n : Reg) : Word :=
  match m.bank n with
  | some p => s.regs.get p
  | none => s.readPc

/-- Register `n` of the current mode (00_scope.md section 6.2, `x[n]`). -/
def State.readReg (s : State) (n : Reg) : Word := s.readRegOf s.cpsr.mode n

/-- Register `n` as mode `m` sees it, set to `v`; a write of R15 sets the PC, bits 1:0 dropped (10_state.md R32). -/
def State.setRegOf (s : State) (m : Mode) (n : Reg) (v : Word) : State :=
  match m.bank n with
  | some p => s.withRegs (s.regs.set p v)
  | none => s.withPc (wordAligned v)

/-- Register `n` of the current mode set to `v` (00_scope.md section 6.2). -/
def State.setReg (s : State) (n : Reg) (v : Word) : State := s.setRegOf s.cpsr.mode n v

/-- The register is one that the mode has a copy of its own of (10_state.md R23; 70_reset_and_hazards.md R506). -/
def Mode.banked (m : Mode) (n : Reg) : Bool := m.bank n != Mode.usr.bank n

/-- A named privileged mode: every mode but User (10_state.md R44, 60_exceptions.md R470). -/
def Mode.privileged (m : Mode) : Bool := m != .usr

/-- The current mode is privileged (00_scope.md section 6.2, `InPrivilegedMode`). -/
def State.privileged (s : State) : Bool := s.cpsr.mode.privileged

end Sys2Proof.Machine
end

