-- ==== Sys2Proof/Machine/Psr.lean ====
section
/-! DEFINITION. The program status registers as words, and the draws behind their reserved bits (10_state.md R40 to
R51). -/

namespace Sys2Proof.Machine

/-- The mode bits of a mode (10_state.md R44). -/
def Mode.bits : Mode → BitVec 5
  | .usr => 0b10000#5 | .fiq => 0b10001#5 | .irq => 0b10010#5 | .svc => 0b10011#5 | .abt => 0b10111#5
  | .und => 0b11011#5 | .sys => 0b11111#5

/-- The mode that mode bits stand for; none for the 25 other values (10_state.md R44, R45). -/
def Mode.ofBits (b : BitVec 5) : Option Mode :=
  match b.toNat with
  | 16 => some .usr | 17 => some .fiq | 18 => some .irq | 19 => some .svc | 23 => some .abt
  | 27 => some .und | 31 => some .sys | _ => none

/-- Bits 31:28 of a PSR: N, Z, C, V (10_state.md R41). -/
def Flags.bits (fl : Flags) : BitVec 4 :=
  BitVec.ofBool fl.n ++ BitVec.ofBool fl.z ++ BitVec.ofBool fl.c ++ BitVec.ofBool fl.v

/-- The flags in bits 31:28 of a word (10_state.md R41). -/
def Flags.ofWord (w : Word) : Flags :=
  { n := w.getLsbD 31, z := w.getLsbD 30, c := w.getLsbD 29, v := w.getLsbD 28 }

/-- A PSR as a word: its fields at the places of 10_state.md R41, its reserved bits those of `free` (R47). -/
def psrWord (fl : Flags) (i f : Bool) (m : BitVec 5) (free : Word) : Word :=
  fl.bits ++ free.extractLsb' 8 20 ++ BitVec.ofBool i ++ BitVec.ofBool f ++ free.extractLsb' 5 1 ++ m

/-- The CPSR as an exception entry saves it (60_exceptions.md R430). -/
def Cpsr.saved (c : Cpsr) : Spsr := { flags := c.flags, i := c.i, f := c.f, m := c.mode.bits }

/-- The CPSR that an SPSR restores; none when its mode bits are no mode (10_state.md R45, R48). -/
def Spsr.restored (p : Spsr) : Option Cpsr :=
  match Mode.ofBits p.m with
  | some m => some { flags := p.flags, i := p.i, f := p.f, mode := m }
  | none => none

/-- The SPSR of a mode; none in User and System mode (10_state.md R40, R49). -/
def Spsrs.get (x : Spsrs) : Mode → Option Spsr
  | .fiq => some x.fiq | .irq => some x.irq | .svc => some x.svc | .abt => some x.abt | .und => some x.und
  | .usr => none | .sys => none

/-- The SPSR of a mode set; User and System mode have none (10_state.md R40, R49). -/
def Spsrs.set (x : Spsrs) (m : Mode) (p : Spsr) : Spsrs :=
  match m with
  | .fiq => { x with fiq := p }
  | .irq => { x with irq := p }
  | .svc => { x with svc := p }
  | .abt => { x with abt := p }
  | .und => { x with und := p }
  | .usr => x
  | .sys => x

/-- The SPSR of the current mode (00_scope.md section 6.2). -/
def State.spsrNow (s : State) : Option Spsr := s.spsr.get s.cpsr.mode

/-- The next free value (00_scope.md section 6.1, `DRAW`). -/
def State.draw (s : State) : Word := Config.freeWord s.draws

/-- The state after one draw. -/
def State.drawn (s : State) : State := s.withDraws (s.draws + 1)

/-- The flags replaced. -/
def State.withFlags (s : State) (fl : Flags) : State := s.withCpsr { s.cpsr with flags := fl }

end Sys2Proof.Machine
end

