-- ==== Sys2Proof/Machine/Mmu.lean ====
section
/-! DEFINITION. Address translation and the checks on the way of an access (20_memory.md R101 to R108; 10_state.md R63 to
R67, R78). The formats are the architecture's, from general knowledge: PRESUMED, log 18. -/

namespace Sys2Proof.Machine

/-- The inputs of a step nothing is listed for: no line asserted, nothing aborted (00_scope.md section 5; log 16). -/
def Inputs.quiet : Inputs := { fiqLine := false, irqLine := false, reset := false, aborts := [] }

/-- The inputs of the present step. -/
def State.inputs (s : State) : Inputs := s.env.headD Inputs.quiet

/-- The inputs move on to the next step. -/
def State.nextInputs (s : State) : State := s.withEnv s.env.tail

/-- The kind of an access as `AbortOracle` sees it: the read of a swap is a read (20_memory.md R90, R94). -/
def AccessKind.onBus : AccessKind → AccessKind
  | .lockedRead => .read
  | k => k

/-- `AbortOracle` of the present step (20_memory.md R90 step 2, R94). -/
def State.aborted (s : State) (pa : Word) (n : Nat) (kind : AccessKind) : Bool :=
  s.inputs.aborts.contains { addr := pa, size := n, kind := kind.onBus }

/-- What an access to `n` bytes from a physical address meets (20_memory.md R90 step 3). -/
def State.kindAt (s : State) (pa : Word) (n : Nat) : Option RegionKind :=
  accessKindAt s.plat.regions pa.toNat n

/-- The two fields of the fault status register (10_state.md R66). -/
structure FaultStatus where
  status : BitVec 4
  domain : BitVec 4
  deriving DecidableEq, Repr

/-- How an access ends: with a value; aborted, with what the MMU has to record where it raised the abort; at an address
that does not exist; or refused. -/
inductive Access (α : Type) where
  | ok (v : α) (s : State)
  | abort (f : Option FaultStatus) (s : State)
  | stuck (r : Fault)
  | refused (r : Refusal)
  deriving DecidableEq, Repr

/-- Go on with the value of an access. -/
def Access.bind {α β : Type} (x : Access α) (k : α → State → Access β) : Access β :=
  match x with
  | .ok v s => k v s
  | .abort f s => .abort f s
  | .stuck r => .stuck r
  | .refused r => .refused r

/-- A fault of the MMU: the status code of 20_memory.md R106, and the domain, a free value where R106 calls the field
not valid (log 14). -/
def mmuFault {α : Type} (code : BitVec 4) (domain : Option (BitVec 4)) (s : State) : Access α :=
  match domain with
  | some d => .abort (some { status := code, domain := d }) s
  | none => .abort (some { status := code, domain := s.draw.extractLsb' 0 4 }) s.drawn

/-- The address of the first-level descriptor (20_memory.md R102). -/
def firstLevelAddr (ttb : BitVec 18) (va : Word) : Word := ttb ++ va.extractLsb' 20 12 ++ 0#2

/-- The address of the second-level descriptor (20_memory.md R103). -/
def secondLevelAddr (l1 va : Word) : Word := l1.extractLsb' 10 22 ++ va.extractLsb' 12 8 ++ 0#2

/-- The domain field of a first-level descriptor (20_memory.md R102). -/
def domainOf (l1 : Word) : BitVec 4 := l1.extractLsb' 5 4

/-- One read of the translation tables: a physical word read, which the memory system may abort (20_memory.md R108). -/
def tableRead (code : BitVec 4) (domain : Option (BitVec 4)) (pa : Word) (s : State) : Access Word :=
  if s.aborted pa 4 .read then mmuFault code domain s
  else
    match s.kindAt pa 4 with
    | none => .stuck .unmapped
    | some .device => .refused .deviceAccess
    | some _ => .ok (s.mem.readWord (wordCell pa)) s

/-- The second level of the walk, under the page table descriptor `l1` (20_memory.md R103, R105 step 4). Bits 15:12 of a
large page, which should be zero, are ignored: DESIGN CHOICE, log 48. -/
def walkSecond (l1 va : Word) (s : State) : Access TlbEntry :=
  (tableRead 0b1110#4 (some (domainOf l1)) (secondLevelAddr l1 va) s).bind fun l2 s' =>
    match (l2.extractLsb' 0 2).toNat with
    | 0 => mmuFault 0b0111#4 (some (domainOf l1)) s'
    | 1 => .ok { size := .large, va := va, l1 := l1, l2 := l2 } s'
    | 2 => .ok { size := .small, va := va, l1 := l1, l2 := l2 } s'
    | _ => .refused .reservedDescriptor

/-- The table walk for a virtual address (20_memory.md R102, R103, R105 steps 2 to 4). The bits of a descriptor that should
be zero or one are ignored: DESIGN CHOICE, log 48. -/
def walk (va : Word) (s : State) : Access TlbEntry :=
  (tableRead 0b1100#4 none (firstLevelAddr s.cp15.ttb va) s).bind fun l1 s' =>
    match (l1.extractLsb' 0 2).toNat with
    | 0 => mmuFault 0b0101#4 none s'
    | 1 => walkSecond l1 va s'
    | 2 => .ok { size := .sectionMap, va := va, l1 := l1, l2 := 0#32 } s'
    | _ => .refused .reservedDescriptor

/-- A table walk may read the word at physical address `pa`: it is in the first-level table, or in the page table that a
descriptor there leads to. Such a descriptor is not 0, so that a cell of it is listed (20_memory.md R102, R103). -/
def tableWord (s : State) (pa : Word) : Bool :=
  pa.extractLsb' 14 18 == s.cp15.ttb ||
    s.mem.any fun c =>
      let l1 := s.mem.readWord (4 * (c.1 / 4))
      c.1 / 2 ^ 14 == s.cp15.ttb.toNat && l1.extractLsb' 0 2 == 1#2 && l1.extractLsb' 10 22 == pa.extractLsb' 10 22

/-- The entry maps a virtual address (20_memory.md R102, R103; 10_state.md R78). A large page is mapped whole by the one
of its 16 table entries that was walked, whatever the others hold: DESIGN CHOICE, log 49. -/
def TlbEntry.covers (e : TlbEntry) (va : Word) : Bool :=
  match e.size with
  | .sectionMap => e.va.extractLsb' 20 12 == va.extractLsb' 20 12
  | .large => e.va.extractLsb' 16 16 == va.extractLsb' 16 16
  | .small => e.va.extractLsb' 12 20 == va.extractLsb' 12 20

/-- The translation of a virtual address: the oldest that the TLB holds of it, so that a cached translation is used until
it is invalidated, else by a walk whose result the TLB keeps (10_state.md R78; log 19). -/
def tlbLookup (va : Word) (s : State) : Access TlbEntry :=
  match s.tlb.find? (·.covers va) with
  | some e => .ok e s
  | none => (walk va s).bind fun e s' => .ok e (s'.withTlb (s'.tlb ++ [e]))

/-- The physical address an entry maps a virtual address to (20_memory.md R102, R103). -/
def TlbEntry.physical (e : TlbEntry) (va : Word) : Word :=
  match e.size with
  | .sectionMap => e.l1.extractLsb' 20 12 ++ va.extractLsb' 0 20
  | .large => e.l2.extractLsb' 16 16 ++ va.extractLsb' 0 16
  | .small => e.l2.extractLsb' 12 20 ++ va.extractLsb' 0 12

/-- AP field number `k` of a second-level descriptor (20_memory.md R103). -/
def subpageAp (l2 : Word) (k : BitVec 2) : BitVec 2 := (l2 >>> (4 + 2 * k.toNat)).extractLsb' 0 2

/-- The access permission field that governs a virtual address (20_memory.md R102, R103). -/
def TlbEntry.ap (e : TlbEntry) (va : Word) : BitVec 2 :=
  match e.size with
  | .sectionMap => e.l1.extractLsb' 10 2
  | .large => subpageAp e.l2 (va.extractLsb' 14 2)
  | .small => subpageAp e.l2 (va.extractLsb' 10 2)

/-- The descriptor is a page's, not a section's. -/
def TlbEntry.page (e : TlbEntry) : Bool := e.size != .sectionMap

/-- The C bit of the descriptor (20_memory.md R102, R103, R107). -/
def TlbEntry.cacheable (e : TlbEntry) : Bool := if e.page then e.l2.getLsbD 3 else e.l1.getLsbD 3

/-- The table of access permissions; none for the reserved row (20_memory.md R104). -/
def permits (ap : BitVec 2) (ctl : Control) (priv isWrite : Bool) : Option Bool :=
  match ap.toNat, ctl.s, ctl.r with
  | 0, false, false => some false
  | 0, true, false => some (priv && !isWrite)
  | 0, false, true => some (!isWrite)
  | 0, true, true => none
  | 1, _, _ => some priv
  | 2, _, _ => some (priv || !isWrite)
  | _, _, _ => some true

/-- The two bits of the domain access control register for a domain (10_state.md R65). -/
def domainAccess (dac : Word) (d : BitVec 4) : BitVec 2 := (dac >>> (2 * d.toNat)).extractLsb' 0 2

/-- A translated address; what mapped it, where the MMU is on. -/
structure Translated where
  pa  : Word
  via : Option TlbEntry
  deriving DecidableEq, Repr

/-- The domain check, then the permission check (20_memory.md R104, R105 steps 5 and 6, R106). -/
def checkAccess (e : TlbEntry) (kind : AccessKind) (priv : Bool) (va : Word) (s : State) : Access Translated :=
  let d := domainOf e.l1
  let reached : Access Translated := .ok { pa := e.physical va, via := some e } s
  match (domainAccess s.cp15.dac d).toNat with
  | 3 => reached
  | 1 =>
    match permits (e.ap va) s.cp15.control priv (kind == .write) with
    | some true => reached
    | some false => mmuFault (if e.page then 0b1111#4 else 0b1101#4) (some d) s
    | none => .refused .reservedPermission
  | _ => mmuFault (if e.page then 0b1011#4 else 0b1001#4) (some d) s

/-- `Translate` (20_memory.md R105): the identity with the MMU off. -/
def translate (kind : AccessKind) (priv : Bool) (va : Word) (s : State) : Access Translated :=
  if s.cp15.control.m then (tlbLookup va s).bind fun e s' => checkAccess e kind priv va s'
  else .ok { pa := va, via := none } s

/-- Whether an aborted read was a cache line fetch: possible with the cache on and the region cacheable, and then a
free value (20_memory.md R106; log 14); never for a swap, whose accesses go to external memory (48_swap_swi_imb.md R371). -/
def lineFetch (e : TlbEntry) (kind : AccessKind) (s : State) : Bool :=
  kind == .read && s.cp15.control.c && e.cacheable && s.draw.getLsbD 0

/-- The status code of an external abort on an access (20_memory.md R106, the last four rows). -/
def externalCode (line page : Bool) : BitVec 4 :=
  match line, page with
  | true, false => 0b0100#4
  | true, true => 0b0110#4
  | false, false => 0b1000#4
  | false, true => 0b1010#4

/-- An access that the ABORT input fails: recorded with its code where the MMU is on (20_memory.md R106; log 40). -/
def externalAbort {α : Type} (t : Translated) (kind : AccessKind) (s : State) : Access α :=
  match t.via with
  | none => .abort none s
  | some e =>
    .abort (some { status := externalCode (lineFetch e kind s) e.page, domain := domainOf e.l1 }) s.drawn

/-- A physical address that an access may go to, and what stands there: RAM or ROM. -/
structure Reached where
  pa  : Word
  rom : Bool
  deriving DecidableEq, Repr

/-- Steps 1 to 3 of every access: translation, external abort, memory map (20_memory.md R90, R91, R92). -/
def reach (kind : AccessKind) (priv : Bool) (n : Nat) (va : Word) (s : State) : Access Reached :=
  (translate kind priv va s).bind fun t s' =>
    if s'.aborted t.pa n kind then externalAbort t kind s'
    else
      match s'.kindAt t.pa n with
      | none => .stuck .unmapped
      | some .device => .refused .deviceAccess
      | some .rom => .ok { pa := t.pa, rom := true } s'
      | some .ram => .ok { pa := t.pa, rom := false } s'

end Sys2Proof.Machine
end

