-- ==== Sys2Proof/Syntax.lean ====
section
/-! DEFINITION. The syntax of the ARM810's instructions: operand forms, and `Instr`, one constructor for each row of
spec/opcode_table.json in the table's order. Register numbers name R0 to R15 of the current mode (30_encoding.md R141). -/

namespace Sys2Proof

/-- The fifteen conditions (40_condition_field.md R181). The sixteenth value of the field is no condition (R160). -/
inductive Cond where
  | eq | ne | cs | cc | mi | pl | vs | vc | hi | ls | ge | lt | gt | le | al
  deriving DecidableEq, Repr

/-- The shift type field (30_encoding.md R145). -/
inductive ShiftType where
  | lsl | lsr | asr | ror
  deriving DecidableEq, Repr

/-- An 8-bit immediate rotated right by twice `rotate` (30_encoding.md R150). -/
structure RotatedImm where
  rotate : BitVec 4
  imm8   : BitVec 8
  deriving DecidableEq, Repr

/-- Register `rm` shifted by the immediate `amount` (30_encoding.md R151). -/
structure ShiftedReg where
  amount : BitVec 5
  type   : ShiftType
  rm     : Reg
  deriving DecidableEq, Repr

/-- Register `rm` shifted by the bottom byte of register `rs` (30_encoding.md R151). -/
structure RegShiftedReg where
  rs   : Reg
  type : ShiftType
  rm   : Reg
  deriving DecidableEq, Repr

/-- The bits P, U and W of a single or halfword transfer (30_encoding.md R146). -/
structure Indexing where
  p : Bool
  u : Bool
  w : Bool
  deriving DecidableEq, Repr

/-- The bits P, U, S and W of a block transfer (30_encoding.md R146, 47_block_data_transfer.md R340). -/
structure BlockMode where
  p : Bool
  u : Bool
  s : Bool
  w : Bool
  deriving DecidableEq, Repr

/-- One constructor for each row of the opcode table; `c` is the condition, `sf` the bit S of the word. -/
inductive Instr where
  /-- MUL (format MUL, R273). -/
  | mul (c : Cond) (sf : Bool) (rd : Reg) (rs : Reg) (rm : Reg)
  /-- MLA (format MUL, R274). -/
  | mla (c : Cond) (sf : Bool) (rd : Reg) (rn : Reg) (rs : Reg) (rm : Reg)
  /-- UMULL (format MULL, R275). -/
  | umull (c : Cond) (sf : Bool) (rdHi : Reg) (rdLo : Reg) (rs : Reg) (rm : Reg)
  /-- UMLAL (format MULL, R276). -/
  | umlal (c : Cond) (sf : Bool) (rdHi : Reg) (rdLo : Reg) (rs : Reg) (rm : Reg)
  /-- SMULL (format MULL, R277). -/
  | smull (c : Cond) (sf : Bool) (rdHi : Reg) (rdLo : Reg) (rs : Reg) (rm : Reg)
  /-- SMLAL (format MULL, R278). -/
  | smlal (c : Cond) (sf : Bool) (rdHi : Reg) (rdLo : Reg) (rs : Reg) (rm : Reg)
  /-- SWP (format SWP, R371). -/
  | swp (c : Cond) (rn : Reg) (rd : Reg) (rm : Reg)
  /-- SWPB (format SWP, R371). -/
  | swpb (c : Cond) (rn : Reg) (rd : Reg) (rm : Reg)
  /-- STRH, register form (format HWR, R326). -/
  | strhReg (c : Cond) (ix : Indexing) (rn : Reg) (rd : Reg) (rm : Reg)
  /-- STRH, immediate form (format HWI, R326). -/
  | strhImm (c : Cond) (ix : Indexing) (rn : Reg) (rd : Reg) (off : BitVec 8)
  /-- LDRH, register form (format HWR, R325). -/
  | ldrhReg (c : Cond) (ix : Indexing) (rn : Reg) (rd : Reg) (rm : Reg)
  /-- LDRH, immediate form (format HWI, R325). -/
  | ldrhImm (c : Cond) (ix : Indexing) (rn : Reg) (rd : Reg) (off : BitVec 8)
  /-- LDRSB, register form (format HWR, R327). -/
  | ldrsbReg (c : Cond) (ix : Indexing) (rn : Reg) (rd : Reg) (rm : Reg)
  /-- LDRSB, immediate form (format HWI, R327). -/
  | ldrsbImm (c : Cond) (ix : Indexing) (rn : Reg) (rd : Reg) (off : BitVec 8)
  /-- LDRSH, register form (format HWR, R328). -/
  | ldrshReg (c : Cond) (ix : Indexing) (rn : Reg) (rd : Reg) (rm : Reg)
  /-- LDRSH, immediate form (format HWI, R328). -/
  | ldrshImm (c : Cond) (ix : Indexing) (rn : Reg) (rd : Reg) (off : BitVec 8)
  /-- MRS (format MRS, R251). -/
  | mrs (c : Cond) (spsr : Bool) (rd : Reg)
  /-- MSR, register form (format MSRR, R252). -/
  | msrReg (c : Cond) (spsr : Bool) (mask : BitVec 4) (rm : Reg)
  /-- MSR, immediate form (format MSRI, R253). -/
  | msrImm (c : Cond) (spsr : Bool) (mask : BitVec 4) (op : RotatedImm)
  /-- AND, immediate form (format DPI, R214). -/
  | andImm (c : Cond) (sf : Bool) (rn : Reg) (rd : Reg) (op : RotatedImm)
  /-- AND, register form (format DPS, R214). -/
  | andReg (c : Cond) (sf : Bool) (rn : Reg) (rd : Reg) (op : ShiftedReg)
  /-- AND, shift-by-register form (format DPR, R214). -/
  | andRsr (c : Cond) (sf : Bool) (rn : Reg) (rd : Reg) (op : RegShiftedReg)
  /-- EOR, immediate form (format DPI, R215). -/
  | eorImm (c : Cond) (sf : Bool) (rn : Reg) (rd : Reg) (op : RotatedImm)
  /-- EOR, register form (format DPS, R215). -/
  | eorReg (c : Cond) (sf : Bool) (rn : Reg) (rd : Reg) (op : ShiftedReg)
  /-- EOR, shift-by-register form (format DPR, R215). -/
  | eorRsr (c : Cond) (sf : Bool) (rn : Reg) (rd : Reg) (op : RegShiftedReg)
  /-- SUB, immediate form (format DPI, R216). -/
  | subImm (c : Cond) (sf : Bool) (rn : Reg) (rd : Reg) (op : RotatedImm)
  /-- SUB, register form (format DPS, R216). -/
  | subReg (c : Cond) (sf : Bool) (rn : Reg) (rd : Reg) (op : ShiftedReg)
  /-- SUB, shift-by-register form (format DPR, R216). -/
  | subRsr (c : Cond) (sf : Bool) (rn : Reg) (rd : Reg) (op : RegShiftedReg)
  /-- RSB, immediate form (format DPI, R217). -/
  | rsbImm (c : Cond) (sf : Bool) (rn : Reg) (rd : Reg) (op : RotatedImm)
  /-- RSB, register form (format DPS, R217). -/
  | rsbReg (c : Cond) (sf : Bool) (rn : Reg) (rd : Reg) (op : ShiftedReg)
  /-- RSB, shift-by-register form (format DPR, R217). -/
  | rsbRsr (c : Cond) (sf : Bool) (rn : Reg) (rd : Reg) (op : RegShiftedReg)
  /-- ADD, immediate form (format DPI, R218). -/
  | addImm (c : Cond) (sf : Bool) (rn : Reg) (rd : Reg) (op : RotatedImm)
  /-- ADD, register form (format DPS, R218). -/
  | addReg (c : Cond) (sf : Bool) (rn : Reg) (rd : Reg) (op : ShiftedReg)
  /-- ADD, shift-by-register form (format DPR, R218). -/
  | addRsr (c : Cond) (sf : Bool) (rn : Reg) (rd : Reg) (op : RegShiftedReg)
  /-- ADC, immediate form (format DPI, R219). -/
  | adcImm (c : Cond) (sf : Bool) (rn : Reg) (rd : Reg) (op : RotatedImm)
  /-- ADC, register form (format DPS, R219). -/
  | adcReg (c : Cond) (sf : Bool) (rn : Reg) (rd : Reg) (op : ShiftedReg)
  /-- ADC, shift-by-register form (format DPR, R219). -/
  | adcRsr (c : Cond) (sf : Bool) (rn : Reg) (rd : Reg) (op : RegShiftedReg)
  /-- SBC, immediate form (format DPI, R220). -/
  | sbcImm (c : Cond) (sf : Bool) (rn : Reg) (rd : Reg) (op : RotatedImm)
  /-- SBC, register form (format DPS, R220). -/
  | sbcReg (c : Cond) (sf : Bool) (rn : Reg) (rd : Reg) (op : ShiftedReg)
  /-- SBC, shift-by-register form (format DPR, R220). -/
  | sbcRsr (c : Cond) (sf : Bool) (rn : Reg) (rd : Reg) (op : RegShiftedReg)
  /-- RSC, immediate form (format DPI, R221). -/
  | rscImm (c : Cond) (sf : Bool) (rn : Reg) (rd : Reg) (op : RotatedImm)
  /-- RSC, register form (format DPS, R221). -/
  | rscReg (c : Cond) (sf : Bool) (rn : Reg) (rd : Reg) (op : ShiftedReg)
  /-- RSC, shift-by-register form (format DPR, R221). -/
  | rscRsr (c : Cond) (sf : Bool) (rn : Reg) (rd : Reg) (op : RegShiftedReg)
  /-- TST, immediate form (format DPI, R222). -/
  | tstImm (c : Cond) (rn : Reg) (op : RotatedImm)
  /-- TST, register form (format DPS, R222). -/
  | tstReg (c : Cond) (rn : Reg) (op : ShiftedReg)
  /-- TST, shift-by-register form (format DPR, R222). -/
  | tstRsr (c : Cond) (rn : Reg) (op : RegShiftedReg)
  /-- TEQ, immediate form (format DPI, R223). -/
  | teqImm (c : Cond) (rn : Reg) (op : RotatedImm)
  /-- TEQ, register form (format DPS, R223). -/
  | teqReg (c : Cond) (rn : Reg) (op : ShiftedReg)
  /-- TEQ, shift-by-register form (format DPR, R223). -/
  | teqRsr (c : Cond) (rn : Reg) (op : RegShiftedReg)
  /-- CMP, immediate form (format DPI, R224). -/
  | cmpImm (c : Cond) (rn : Reg) (op : RotatedImm)
  /-- CMP, register form (format DPS, R224). -/
  | cmpReg (c : Cond) (rn : Reg) (op : ShiftedReg)
  /-- CMP, shift-by-register form (format DPR, R224). -/
  | cmpRsr (c : Cond) (rn : Reg) (op : RegShiftedReg)
  /-- CMN, immediate form (format DPI, R225). -/
  | cmnImm (c : Cond) (rn : Reg) (op : RotatedImm)
  /-- CMN, register form (format DPS, R225). -/
  | cmnReg (c : Cond) (rn : Reg) (op : ShiftedReg)
  /-- CMN, shift-by-register form (format DPR, R225). -/
  | cmnRsr (c : Cond) (rn : Reg) (op : RegShiftedReg)
  /-- ORR, immediate form (format DPI, R226). -/
  | orrImm (c : Cond) (sf : Bool) (rn : Reg) (rd : Reg) (op : RotatedImm)
  /-- ORR, register form (format DPS, R226). -/
  | orrReg (c : Cond) (sf : Bool) (rn : Reg) (rd : Reg) (op : ShiftedReg)
  /-- ORR, shift-by-register form (format DPR, R226). -/
  | orrRsr (c : Cond) (sf : Bool) (rn : Reg) (rd : Reg) (op : RegShiftedReg)
  /-- MOV, immediate form (format DPI, R227). -/
  | movImm (c : Cond) (sf : Bool) (rd : Reg) (op : RotatedImm)
  /-- MOV, register form (format DPS, R227). -/
  | movReg (c : Cond) (sf : Bool) (rd : Reg) (op : ShiftedReg)
  /-- MOV, shift-by-register form (format DPR, R227). -/
  | movRsr (c : Cond) (sf : Bool) (rd : Reg) (op : RegShiftedReg)
  /-- BIC, immediate form (format DPI, R228). -/
  | bicImm (c : Cond) (sf : Bool) (rn : Reg) (rd : Reg) (op : RotatedImm)
  /-- BIC, register form (format DPS, R228). -/
  | bicReg (c : Cond) (sf : Bool) (rn : Reg) (rd : Reg) (op : ShiftedReg)
  /-- BIC, shift-by-register form (format DPR, R228). -/
  | bicRsr (c : Cond) (sf : Bool) (rn : Reg) (rd : Reg) (op : RegShiftedReg)
  /-- MVN, immediate form (format DPI, R229). -/
  | mvnImm (c : Cond) (sf : Bool) (rd : Reg) (op : RotatedImm)
  /-- MVN, register form (format DPS, R229). -/
  | mvnReg (c : Cond) (sf : Bool) (rd : Reg) (op : ShiftedReg)
  /-- MVN, shift-by-register form (format DPR, R229). -/
  | mvnRsr (c : Cond) (sf : Bool) (rd : Reg) (op : RegShiftedReg)
  /-- UNDEFINED (format UND, R400). -/
  | undefined (c : Cond) (hi : BitVec 20) (lo : BitVec 4)
  /-- LDRT, immediate form (format SDTI, R304). -/
  | ldrtImm (c : Cond) (u : Bool) (rn : Reg) (rd : Reg) (off : BitVec 12)
  /-- LDRT, register form (format SDTR, R304). -/
  | ldrtReg (c : Cond) (u : Bool) (rn : Reg) (rd : Reg) (op : ShiftedReg)
  /-- STRT, immediate form (format SDTI, R304). -/
  | strtImm (c : Cond) (u : Bool) (rn : Reg) (rd : Reg) (off : BitVec 12)
  /-- STRT, register form (format SDTR, R304). -/
  | strtReg (c : Cond) (u : Bool) (rn : Reg) (rd : Reg) (op : ShiftedReg)
  /-- LDRBT, immediate form (format SDTI, R304). -/
  | ldrbtImm (c : Cond) (u : Bool) (rn : Reg) (rd : Reg) (off : BitVec 12)
  /-- LDRBT, register form (format SDTR, R304). -/
  | ldrbtReg (c : Cond) (u : Bool) (rn : Reg) (rd : Reg) (op : ShiftedReg)
  /-- STRBT, immediate form (format SDTI, R304). -/
  | strbtImm (c : Cond) (u : Bool) (rn : Reg) (rd : Reg) (off : BitVec 12)
  /-- STRBT, register form (format SDTR, R304). -/
  | strbtReg (c : Cond) (u : Bool) (rn : Reg) (rd : Reg) (op : ShiftedReg)
  /-- LDR, immediate form (format SDTI, R295). -/
  | ldrImm (c : Cond) (ix : Indexing) (rn : Reg) (rd : Reg) (off : BitVec 12)
  /-- LDR, register form (format SDTR, R295). -/
  | ldrReg (c : Cond) (ix : Indexing) (rn : Reg) (rd : Reg) (op : ShiftedReg)
  /-- STR, immediate form (format SDTI, R298). -/
  | strImm (c : Cond) (ix : Indexing) (rn : Reg) (rd : Reg) (off : BitVec 12)
  /-- STR, register form (format SDTR, R298). -/
  | strReg (c : Cond) (ix : Indexing) (rn : Reg) (rd : Reg) (op : ShiftedReg)
  /-- LDRB, immediate form (format SDTI, R297). -/
  | ldrbImm (c : Cond) (ix : Indexing) (rn : Reg) (rd : Reg) (off : BitVec 12)
  /-- LDRB, register form (format SDTR, R297). -/
  | ldrbReg (c : Cond) (ix : Indexing) (rn : Reg) (rd : Reg) (op : ShiftedReg)
  /-- STRB, immediate form (format SDTI, R301). -/
  | strbImm (c : Cond) (ix : Indexing) (rn : Reg) (rd : Reg) (off : BitVec 12)
  /-- STRB, register form (format SDTR, R301). -/
  | strbReg (c : Cond) (ix : Indexing) (rn : Reg) (rd : Reg) (op : ShiftedReg)
  /-- LDM (format BDT, R344). -/
  | ldm (c : Cond) (bm : BlockMode) (rn : Reg) (list : BitVec 16)
  /-- STM (format BDT, R346). -/
  | stm (c : Cond) (bm : BlockMode) (rn : Reg) (list : BitVec 16)
  /-- B (format BR, R191). -/
  | b (c : Cond) (off : BitVec 24)
  /-- BL (format BR, R192). -/
  | bl (c : Cond) (off : BitVec 24)
  /-- LDC (format CDT, R399). -/
  | ldc (c : Cond) (p : Bool) (u : Bool) (n : Bool) (w : Bool) (rn : Reg) (crd : BitVec 4) (cp : BitVec 4) (off : BitVec 8)
  /-- STC (format CDT, R399). -/
  | stc (c : Cond) (p : Bool) (u : Bool) (n : Bool) (w : Bool) (rn : Reg) (crd : BitVec 4) (cp : BitVec 4) (off : BitVec 8)
  /-- IMB (format SWI, R380). -/
  | imb (c : Cond)
  /-- IMBRange (format SWI, R381). -/
  | imbRange (c : Cond)
  /-- SWI (format SWI, R375). -/
  | swi (c : Cond) (comment : BitVec 24)
  /-- CDP (format CDO, R399). -/
  | cdp (c : Cond) (op1 : BitVec 4) (crn : BitVec 4) (crd : BitVec 4) (cp : BitVec 4) (op2 : BitVec 3) (crm : BitVec 4)
  /-- MRC (format CRT, R391). -/
  | mrc (c : Cond) (op1 : BitVec 3) (crn : BitVec 4) (rd : Reg) (op2 : BitVec 3) (crm : BitVec 4)
  /-- MCR (format CRT, R392). -/
  | mcr (c : Cond) (op1 : BitVec 3) (crn : BitVec 4) (rd : Reg) (op2 : BitVec 3) (crm : BitVec 4)
  /-- MRC to a coprocessor other than 15 (format CRT, R398). -/
  | mrcOther (c : Cond) (op1 : BitVec 3) (crn : BitVec 4) (rd : Reg) (cp : BitVec 4) (op2 : BitVec 3) (crm : BitVec 4)
  /-- MCR to a coprocessor other than 15 (format CRT, R398). -/
  | mcrOther (c : Cond) (op1 : BitVec 3) (crn : BitVec 4) (rd : Reg) (cp : BitVec 4) (op2 : BitVec 3) (crm : BitVec 4)
  deriving DecidableEq, Repr

end Sys2Proof
end

