-- ==== Sys2Proof/Machine/Flags.lean ====
section
/-! DEFINITION. Every flag computation: the conditions, the adder, the sixteen data-processing operations and the
multiplies (40_condition_field.md R181; 00_scope.md section 6.3; 42_data_processing.md R212 to R229; 44_multiply.md R272). -/

namespace Sys2Proof.Machine

/-- The condition holds of the flags (40_condition_field.md R181). -/
def Flags.pass (fl : Flags) : Cond → Bool
  | .eq => fl.z
  | .ne => !fl.z
  | .cs => fl.c
  | .cc => !fl.c
  | .mi => fl.n
  | .pl => !fl.n
  | .vs => fl.v
  | .vc => !fl.v
  | .hi => fl.c && !fl.z
  | .ls => !fl.c || fl.z
  | .ge => fl.n == fl.v
  | .lt => fl.n != fl.v
  | .gt => !fl.z && fl.n == fl.v
  | .le => fl.z || fl.n != fl.v
  | .al => true

/-- What the adder gives: result, carry, overflow. -/
structure Sum where
  result   : Word
  carry    : Bool
  overflow : Bool
  deriving DecidableEq, Repr

/-- `AddWithCarry` (00_scope.md section 6.3): the exact unsigned and signed sums, narrowed at the end. -/
def addWithCarry (a b : Word) (cin : Bool) : Sum :=
  let usum := a.toNat + b.toNat + cin.toNat
  let ssum := a.toInt + b.toInt + (cin.toNat : Int)
  let result := BitVec.ofNat 32 usum
  { result := result, carry := decide (2 ^ 32 ≤ usum), overflow := decide (ssum ≠ result.toInt) }

/-- The sixteen data-processing operations (30_encoding.md R144). -/
inductive DpOp where
  | and | eor | sub | rsb | add | adc | sbc | rsc | tst | teq | cmp | cmn | orr | mov | bic | mvn
  deriving DecidableEq, Repr

/-- The operation writes no register: TST, TEQ, CMP, CMN (42_data_processing.md R200). -/
def DpOp.compares : DpOp → Bool
  | .tst | .teq | .cmp | .cmn => true
  | _ => false

/-- The second operand and the carry out of the shifter (42_data_processing.md R203). -/
structure ShifterOut where
  op2   : Word
  carry : Bool
  deriving DecidableEq, Repr

/-- The flags of a logical operation: N and Z of the result, C of the shifter, V unchanged (42_data_processing.md R212). -/
def logicalFlags (result : Word) (carry : Bool) (old : Flags) : Flags :=
  { n := result.getLsbD 31, z := result == 0#32, c := carry, v := old.v }

/-- The flags of an arithmetic operation (42_data_processing.md R212). -/
def sumFlags (x : Sum) : Flags :=
  { n := x.result.getLsbD 31, z := x.result == 0#32, c := x.carry, v := x.overflow }

/-- A result and the flags that go with it. -/
structure AluOut where
  result : Word
  flags  : Flags
  deriving DecidableEq, Repr

/-- A logical operation's result with its flags. -/
def logicalOut (result : Word) (sh : ShifterOut) (old : Flags) : AluOut :=
  { result := result, flags := logicalFlags result sh.carry old }

/-- An arithmetic operation's result with its flags. -/
def sumOut (x : Sum) : AluOut := { result := x.result, flags := sumFlags x }

/-- The sixteen operations on the first operand, the shifter's output and the old flags (42_data_processing.md R214 to
R229). -/
def alu (op : DpOp) (a : Word) (sh : ShifterOut) (old : Flags) : AluOut :=
  match op with
  | .and => logicalOut (a &&& sh.op2) sh old
  | .eor => logicalOut (a ^^^ sh.op2) sh old
  | .sub => sumOut (addWithCarry a (~~~sh.op2) true)
  | .rsb => sumOut (addWithCarry sh.op2 (~~~a) true)
  | .add => sumOut (addWithCarry a sh.op2 false)
  | .adc => sumOut (addWithCarry a sh.op2 old.c)
  | .sbc => sumOut (addWithCarry a (~~~sh.op2) old.c)
  | .rsc => sumOut (addWithCarry sh.op2 (~~~a) old.c)
  | .tst => logicalOut (a &&& sh.op2) sh old
  | .teq => logicalOut (a ^^^ sh.op2) sh old
  | .cmp => sumOut (addWithCarry a (~~~sh.op2) true)
  | .cmn => sumOut (addWithCarry a sh.op2 false)
  | .orr => logicalOut (a ||| sh.op2) sh old
  | .mov => logicalOut sh.op2 sh old
  | .bic => logicalOut (a &&& ~~~sh.op2) sh old
  | .mvn => logicalOut (~~~sh.op2) sh old

/-- The flags of MUL and MLA with S set: C is the draw `freeC`, V unchanged (44_multiply.md R272). -/
def mulFlags (result : Word) (freeC : Bool) (old : Flags) : Flags :=
  { n := result.getLsbD 31, z := result == 0#32, c := freeC, v := old.v }

/-- The flags of the long multiplies with S set: C and V are draws (44_multiply.md R272). -/
def mulLongFlags (p : BitVec 64) (freeC freeV : Bool) : Flags :=
  { n := p.getLsbD 63, z := p == 0#64, c := freeC, v := freeV }

end Sys2Proof.Machine
end

