-- ==== Sys2Proof/Machine/Operands.lean ====
section
/-! DEFINITION. Every operand form: the shifter, the transfer addresses, the block addresses and the branch target
(42_data_processing.md R203 to R207; 45_single_data_transfer.md R291, R292; 47_block_data_transfer.md R341;
41_branch.md R191). -/

namespace Sys2Proof.Machine

/-- The value of a rotated immediate (30_encoding.md R150). -/
def rotatedValue (op : RotatedImm) : Word := (op.imm8.setWidth 32).rotateRight (2 * op.rotate.toNat)

/-- The immediate operand with its shifter carry (42_data_processing.md R204). -/
def immOperand (op : RotatedImm) (c : Bool) : ShifterOut :=
  { op2 := rotatedValue op, carry := if op.rotate = 0#4 then c else (rotatedValue op).getLsbD 31 }

/-- All ones or all zeros, as bit 31 of `v` (42_data_processing.md R206, ASR #32). -/
def signFill (v : Word) : Word := if v.getLsbD 31 then 0xFFFFFFFF#32 else 0#32

/-- A shift by an immediate amount `n`, 0 to 31 (42_data_processing.md R206). -/
def shiftByImm (type : ShiftType) (n : Nat) (v : Word) (c : Bool) : ShifterOut :=
  match type with
  | .lsl => if n = 0 then ⟨v, c⟩ else ⟨v <<< n, v.getLsbD (32 - n)⟩
  | .lsr => if n = 0 then ⟨0#32, v.getLsbD 31⟩ else ⟨v >>> n, v.getLsbD (n - 1)⟩
  | .asr => if n = 0 then ⟨signFill v, v.getLsbD 31⟩ else ⟨v.sshiftRight n, v.getLsbD (n - 1)⟩
  | .ror =>
    if n = 0 then ⟨BitVec.ofBool c ++ v.extractLsb' 1 31, v.getLsbD 0⟩
    else ⟨v.rotateRight n, v.getLsbD (n - 1)⟩

/-- A shift by a register amount `n`, 0 to 255 (42_data_processing.md R207). -/
def shiftByReg (type : ShiftType) (n : Nat) (v : Word) (c : Bool) : ShifterOut :=
  if n = 0 then ⟨v, c⟩
  else
    match type with
    | .lsl =>
      if n < 32 then ⟨v <<< n, v.getLsbD (32 - n)⟩
      else if n = 32 then ⟨0#32, v.getLsbD 0⟩ else ⟨0#32, false⟩
    | .lsr =>
      if n < 32 then ⟨v >>> n, v.getLsbD (n - 1)⟩
      else if n = 32 then ⟨0#32, v.getLsbD 31⟩ else ⟨0#32, false⟩
    | .asr => if n < 32 then ⟨v.sshiftRight n, v.getLsbD (n - 1)⟩ else ⟨signFill v, v.getLsbD 31⟩
    | .ror =>
      if n % 32 = 0 then ⟨v, v.getLsbD 31⟩ else ⟨v.rotateRight (n % 32), v.getLsbD (n % 32 - 1)⟩

/-- A register shifted by an immediate amount, as an operand (42_data_processing.md R206, R210). -/
def shiftedOperand (op : ShiftedReg) (s : State) : ShifterOut :=
  shiftByImm op.type op.amount.toNat (s.readReg op.rm) s.cpsr.flags.c

/-- A register shifted by the bottom byte of a register, as an operand (42_data_processing.md R207). -/
def regShiftedOperand (op : RegShiftedReg) (s : State) : ShifterOut :=
  shiftByReg op.type ((s.readReg op.rs).extractLsb' 0 8).toNat (s.readReg op.rm) s.cpsr.flags.c

/-- The base is written back: post-indexed, or W set (45_single_data_transfer.md R292). -/
def writesBack (ix : Indexing) : Bool := !ix.p || ix.w

/-- The base with the offset applied (45_single_data_transfer.md R292). -/
def offsetAddr (ix : Indexing) (base offset : Word) : Word :=
  if ix.u then base + offset else base - offset

/-- The address of the transfer (45_single_data_transfer.md R292). -/
def transferAddr (ix : Indexing) (base offset : Word) : Word :=
  if ix.p then offsetAddr ix base offset else base

/-- The indexing of the translate forms: post-indexed with W set (45_single_data_transfer.md R304). -/
def translateIndexing (u : Bool) : Indexing := { p := false, u := u, w := true }

/-- A 12-bit offset (45_single_data_transfer.md R291). -/
def offset12 (off : BitVec 12) : Word := off.setWidth 32

/-- An 8-bit offset (46_halfword_signed_transfer.md R320). -/
def offset8 (off : BitVec 8) : Word := off.setWidth 32

/-- A shifted-register offset, the carry discarded (45_single_data_transfer.md R291). -/
def shiftedOffset (op : ShiftedReg) (s : State) : Word := (shiftedOperand op s).op2

/-- The sixteen register numbers in ascending order. -/
def allRegs : List Reg :=
  [0#4, 1#4, 2#4, 3#4, 4#4, 5#4, 6#4, 7#4, 8#4, 9#4, 10#4, 11#4, 12#4, 13#4, 14#4, 15#4]

/-- The registers of a list, ascending (47_block_data_transfer.md R340, R341). -/
def regsOf (list : BitVec 16) : List Reg := allRegs.filter fun r => list.getLsbD r.toNat

/-- The list names register `r` (30_encoding.md R155). -/
def inList (list : BitVec 16) (r : Reg) : Bool := list.getLsbD r.toNat

/-- Four times the number of registers of a list. -/
def blockBytes (list : BitVec 16) : Word := BitVec.ofNat 32 (4 * (regsOf list).length)

/-- The address of the lowest register of a block transfer (47_block_data_transfer.md R341). -/
def blockStart (bm : BlockMode) (base : Word) (list : BitVec 16) : Word :=
  match bm.p, bm.u with
  | false, true => base
  | true, true => base + 4#32
  | false, false => base - blockBytes list + 4#32
  | true, false => base - blockBytes list

/-- The written-back value of a block transfer (47_block_data_transfer.md R341). -/
def blockWritten (bm : BlockMode) (base : Word) (list : BitVec 16) : Word :=
  if bm.u then base + blockBytes list else base - blockBytes list

/-- The target of a branch over the integers (41_branch.md R191). -/
def branchSum (pc : Word) (off : BitVec 24) : Int := (pc.toNat : Int) + 8 + 4 * off.toInt

/-- The target of a branch (30_encoding.md R154, 41_branch.md R191). -/
def branchTarget (pc : Word) (off : BitVec 24) : Word := pc + 8#32 + (off ++ 0#2).signExtend 32

end Sys2Proof.Machine
end

