-- ==== Sys2Proof/WellFormed.lean ====
section
/-! DEFINITION. Which terms of `Instr` are instructions of the chip: those that some word stands for. A term outside
them would share its word with an earlier row of the opcode table (30_encoding.md R177). Operand combinations that the
spec calls UNPREDICTABLE are words of the chip and stay well formed: their meaning refuses them by name
(Sys2Proof.Machine.Restrictions). -/

namespace Sys2Proof

/-- Post-indexed with W set is the translate form, another row (45_single_data_transfer.md R290, R304). -/
def Indexing.plain (ix : Indexing) : Bool := ix.p || !ix.w

/-- The comment values of IMB and IMBRange (48_swap_swi_imb.md R380, R381), which are rows of their own. -/
def imbComment (comment : BitVec 24) : Bool := comment == 0xF00000#24 || comment == 0xF00001#24

/-- `i` is the reading of some word: its operands do not belong to an earlier row of the table (30_encoding.md R177). -/
def Instr.wf : Instr → Bool
  | .mul _ _ _ _ _ => true
  | .mla _ _ _ _ _ _ => true
  | .umull _ _ _ _ _ _ => true
  | .umlal _ _ _ _ _ _ => true
  | .smull _ _ _ _ _ _ => true
  | .smlal _ _ _ _ _ _ => true
  | .swp _ _ _ _ => true
  | .swpb _ _ _ _ => true
  | .strhReg _ _ _ _ _ => true
  | .strhImm _ _ _ _ _ => true
  | .ldrhReg _ _ _ _ _ => true
  | .ldrhImm _ _ _ _ _ => true
  | .ldrsbReg _ _ _ _ _ => true
  | .ldrsbImm _ _ _ _ _ => true
  | .ldrshReg _ _ _ _ _ => true
  | .ldrshImm _ _ _ _ _ => true
  | .mrs _ _ _ => true
  | .msrReg _ _ _ _ => true
  | .msrImm _ _ _ _ => true
  | .andImm _ _ _ _ _ => true
  | .andReg _ _ _ _ _ => true
  | .andRsr _ _ _ _ _ => true
  | .eorImm _ _ _ _ _ => true
  | .eorReg _ _ _ _ _ => true
  | .eorRsr _ _ _ _ _ => true
  | .subImm _ _ _ _ _ => true
  | .subReg _ _ _ _ _ => true
  | .subRsr _ _ _ _ _ => true
  | .rsbImm _ _ _ _ _ => true
  | .rsbReg _ _ _ _ _ => true
  | .rsbRsr _ _ _ _ _ => true
  | .addImm _ _ _ _ _ => true
  | .addReg _ _ _ _ _ => true
  | .addRsr _ _ _ _ _ => true
  | .adcImm _ _ _ _ _ => true
  | .adcReg _ _ _ _ _ => true
  | .adcRsr _ _ _ _ _ => true
  | .sbcImm _ _ _ _ _ => true
  | .sbcReg _ _ _ _ _ => true
  | .sbcRsr _ _ _ _ _ => true
  | .rscImm _ _ _ _ _ => true
  | .rscReg _ _ _ _ _ => true
  | .rscRsr _ _ _ _ _ => true
  | .tstImm _ _ _ => true
  | .tstReg _ _ _ => true
  | .tstRsr _ _ _ => true
  | .teqImm _ _ _ => true
  | .teqReg _ _ _ => true
  | .teqRsr _ _ _ => true
  | .cmpImm _ _ _ => true
  | .cmpReg _ _ _ => true
  | .cmpRsr _ _ _ => true
  | .cmnImm _ _ _ => true
  | .cmnReg _ _ _ => true
  | .cmnRsr _ _ _ => true
  | .orrImm _ _ _ _ _ => true
  | .orrReg _ _ _ _ _ => true
  | .orrRsr _ _ _ _ _ => true
  | .movImm _ _ _ _ => true
  | .movReg _ _ _ _ => true
  | .movRsr _ _ _ _ => true
  | .bicImm _ _ _ _ _ => true
  | .bicReg _ _ _ _ _ => true
  | .bicRsr _ _ _ _ _ => true
  | .mvnImm _ _ _ _ => true
  | .mvnReg _ _ _ _ => true
  | .mvnRsr _ _ _ _ => true
  | .undefined _ _ _ => true
  | .ldrtImm _ _ _ _ _ => true
  | .ldrtReg _ _ _ _ _ => true
  | .strtImm _ _ _ _ _ => true
  | .strtReg _ _ _ _ _ => true
  | .ldrbtImm _ _ _ _ _ => true
  | .ldrbtReg _ _ _ _ _ => true
  | .strbtImm _ _ _ _ _ => true
  | .strbtReg _ _ _ _ _ => true
  | .ldrImm _ ix _ _ _ => ix.plain
  | .ldrReg _ ix _ _ _ => ix.plain
  | .strImm _ ix _ _ _ => ix.plain
  | .strReg _ ix _ _ _ => ix.plain
  | .ldrbImm _ ix _ _ _ => ix.plain
  | .ldrbReg _ ix _ _ _ => ix.plain
  | .strbImm _ ix _ _ _ => ix.plain
  | .strbReg _ ix _ _ _ => ix.plain
  | .ldm _ _ _ _ => true
  | .stm _ _ _ _ => true
  | .b _ _ => true
  | .bl _ _ => true
  | .ldc _ _ _ _ _ _ _ _ _ => true
  | .stc _ _ _ _ _ _ _ _ _ => true
  | .imb _ => true
  | .imbRange _ => true
  | .swi _ comment => !imbComment comment
  | .cdp _ _ _ _ _ _ _ => true
  | .mrc _ _ _ _ _ _ => true
  | .mcr _ _ _ _ _ _ => true
  | .mrcOther _ _ _ _ cp _ _ => cp != 15#4
  | .mcrOther _ _ _ _ cp _ _ => cp != 15#4

end Sys2Proof
end

