-- ==== Sys2Proof/Machine/Restrictions.lean ====
section
/-! DEFINITION. The operand combinations the spec calls UNPREDICTABLE (93_implementation_defined.md section 1.2), one
predicate for each family: it holds of the operands the family allows. -/

namespace Sys2Proof.Machine

/-- The register number is R15. -/
def isPc (r : Reg) : Bool := r == 15#4

/-- No R15 beside a register-specified shift (42_data_processing.md R211). -/
def regShiftOk (rn rd : Reg) (op : RegShiftedReg) : Bool :=
  !isPc rn && !isPc rd && !isPc op.rs && !isPc op.rm

/-- MUL (44_multiply.md R271). -/
def mulOk (rd rs rm : Reg) : Bool := !isPc rd && !isPc rs && !isPc rm && rd != rm

/-- MLA (44_multiply.md R271). -/
def mlaOk (rd rn rs rm : Reg) : Bool := mulOk rd rs rm && !isPc rn

/-- The long multiplies (44_multiply.md R271). -/
def mulLongOk (rdHi rdLo rs rm : Reg) : Bool :=
  !isPc rdHi && !isPc rdLo && !isPc rs && !isPc rm && rdHi != rdLo && rdHi != rm && rdLo != rm

/-- The base register of a transfer that writes it back (45_single_data_transfer.md R293 a, b;
46_halfword_signed_transfer.md R323 b). -/
def baseOk (ix : Indexing) (rn rd : Reg) : Bool := !writesBack ix || (!isPc rn && rd != rn)

/-- The offset register of a transfer (45_single_data_transfer.md R293 c, d; 46_halfword_signed_transfer.md R323 c). -/
def offsetRegOk (ix : Indexing) (rn rm : Reg) : Bool := !isPc rm && (!writesBack ix || rm != rn)

/-- A single transfer with an immediate offset; `noPc`: a byte transfer or a translate form (45_single_data_transfer.md
R293 a, b, e). -/
def singleImmOk (noPc : Bool) (ix : Indexing) (rn rd : Reg) : Bool := baseOk ix rn rd && !(noPc && isPc rd)

/-- A single transfer with a register offset (45_single_data_transfer.md R293 a to e). -/
def singleRegOk (noPc : Bool) (ix : Indexing) (rn rd rm : Reg) : Bool :=
  singleImmOk noPc ix rn rd && offsetRegOk ix rn rm

/-- A halfword transfer with an immediate offset (46_halfword_signed_transfer.md R323 a, b, d). -/
def halfImmOk (ix : Indexing) (rn rd : Reg) : Bool := ix.plain && baseOk ix rn rd && !isPc rd

/-- A halfword transfer with a register offset (46_halfword_signed_transfer.md R323 a to d). -/
def halfRegOk (ix : Indexing) (rn rd rm : Reg) : Bool := halfImmOk ix rn rd && offsetRegOk ix rn rm

/-- LDM (47_block_data_transfer.md R342 a, b, c, f). -/
def loadBlockOk (bm : BlockMode) (rn : Reg) (list : BitVec 16) : Bool :=
  list != 0#16 && !isPc rn && !(bm.w && inList list rn) && !(bm.s && bm.w && !inList list 15#4)

/-- STM (47_block_data_transfer.md R342 a, b, d, f). -/
def storeBlockOk (bm : BlockMode) (rn : Reg) (list : BitVec 16) : Bool :=
  list != 0#16 && !isPc rn && !(bm.w && inList list rn && (regsOf list).head? != some rn) && !(bm.s && bm.w)

/-- S set outside a mode with a bank of its own (47_block_data_transfer.md R342 e). -/
def blockModeOk (bm : BlockMode) (m : Mode) : Bool := !(bm.s && (m == .usr || m == .sys))

/-- The transfers do not cross from 0xFFFFFFFC to 0 (47_block_data_transfer.md R342 g). -/
def blockFits (start : Word) (list : BitVec 16) : Bool :=
  decide ((wordAligned start).toNat + 4 * (regsOf list).length ≤ 2 ^ 32)

/-- SWP and SWPB (48_swap_swi_imb.md R370). -/
def swapOk (rn rd rm : Reg) : Bool := !isPc rn && !isPc rd && !isPc rm && rn != rd && rn != rm

end Sys2Proof.Machine
end

