-- ==== Sys2Proof/Machine/Ops.lean ====
section
/-! DEFINITION. The operations the meanings share: the condition, moving on, the accesses to memory, taking an exception
and returning from one (00_scope.md section 6.3; 20_memory.md R90, R91; 60_exceptions.md R430 to R440, R465). -/

namespace Sys2Proof.Machine

/-- The next instruction is the one at `pc + 4`; there is none after 0xFFFFFFFC (10_state.md R33, R34). -/
def advance (s : State) : Result :=
  if s.pc = 0xFFFFFFFC#32 then .refused .noSuccessor else .next (s.withPc (s.pc + 4#32))

/-- An instruction under its condition: cancelled when the condition fails (40_condition_field.md R180). -/
def whenPassed (c : Cond) (s : State) (k : Result) : Result :=
  if s.cpsr.flags.pass c then k else advance s

/-- The effect where the operands are allowed, else the refusal named. -/
def allowing (ok : Bool) (r : Refusal) (k : Result) : Result := if ok then k else .refused r

/-- A branch: the next instruction is at `target`, bits 1:0 dropped (10_state.md R32). -/
def jump (target : Word) (s : State) : Result := .next (s.withPc (wordAligned target))

/-- The exceptions entered by the common sequence (60_exceptions.md R439); Reset is not one of them (R438). -/
inductive Exc where
  | undefined | swi | prefetchAbort | dataAbort | irq | fiq
  deriving DecidableEq, Repr

/-- The mode entered (60_exceptions.md R439). -/
def Exc.mode : Exc → Mode
  | .undefined => .und | .swi => .svc | .prefetchAbort => .abt | .dataAbort => .abt | .irq => .irq | .fiq => .fiq

/-- The vector (20_memory.md R98, 60_exceptions.md R439). -/
def Exc.vector : Exc → Word
  | .undefined => 0x04#32 | .swi => 0x08#32 | .prefetchAbort => 0x0C#32 | .dataAbort => 0x10#32
  | .irq => 0x18#32 | .fiq => 0x1C#32

/-- The entry sets F: FIQ only (60_exceptions.md R430, R439). -/
def Exc.setsF : Exc → Bool
  | .fiq => true
  | _ => false

/-- Taking an exception, `Enter(newmode, vector, ret, setF)` (60_exceptions.md R430): R14 of the mode entered receives
`ret`, its SPSR the CPSR, I is set, F for FIQ only, and the pc is the vector. -/
def takeException (e : Exc) (ret : Word) (s : State) : State :=
  (((s.withRegs (s.regs.set e.mode.bank14 ret)).withSpsr (s.spsr.set e.mode s.cpsr.saved)).withCpsr
    { flags := s.cpsr.flags, i := true, f := s.cpsr.f || e.setsF, mode := e.mode }).withPc e.vector

/-- Returning from an exception: the SPSR of the current mode goes to the CPSR and `target` to the PC in one step
(60_exceptions.md R465; 42_data_processing.md R213; 10_state.md R45, R49). -/
def returnTo (target : Word) (s : State) : Result :=
  match s.spsrNow with
  | none => .refused .noSpsr
  | some p =>
    match p.restored with
    | none => .refused .badMode
    | some c => .next ((s.withCpsr c).withPc (wordAligned target))

/-- `UNDEFINED`: the undefined instruction trap (60_exceptions.md R437, R440). -/
def undefinedTrap (s : State) : Result := .next (takeException .undefined (s.pc + 4#32) s)

/-- The software interrupt (60_exceptions.md R436). -/
def softwareInterrupt (s : State) : Result := .next (takeException .swi (s.pc + 4#32) s)

/-- The fault status and fault address registers written (10_state.md R66, R67). -/
def State.recordFault (s : State) (f : FaultStatus) (far : Word) : State :=
  s.withCp15 { s.cp15 with fsrStatus := f.status, fsrDomain := f.domain, far := far }

/-- A Data Abort: FSR and FAR where the MMU raised it, then the entry (60_exceptions.md R435, R440). -/
def dataAbort (f : Option FaultStatus) (far : Word) (s : State) : Result :=
  .next (takeException .dataAbort (s.pc + 8#32)
    (match f with
     | some x => s.recordFault x far
     | none => s))

/-- The status of an alignment fault, 0b00x1, its open bit and its domain free values (20_memory.md R106; log 14). -/
def alignmentStatus (s : State) : FaultStatus :=
  { status := 0b00#2 ++ s.draw.extractLsb' 4 1 ++ 1#1, domain := s.draw.extractLsb' 0 4 }

/-- A Data Abort for an alignment fault (20_memory.md R89, R105 step 1, R106). -/
def alignmentAbort (far : Word) (s : State) : Result := dataAbort (some (alignmentStatus s)) far s.drawn

/-- A word address is misaligned (20_memory.md R89). -/
def misalignedWord (a : Word) : Bool := a.extractLsb' 0 2 != 0#2

/-- A half-word address is misaligned (20_memory.md R89). -/
def misalignedHalf (a : Word) : Bool := a.getLsbD 0

/-- The word at `a` meets the bytes of a range (48_swap_swi_imb.md R382: `R0 <= a + 3` and `a <= R1`). -/
def AddrRange.meets (x : AddrRange) (a : Word) : Bool :=
  decide (x.first.toNat ≤ a.toNat + 3) && decide (a.toNat ≤ x.last.toNat)

/-- The word becomes one whose fetch must wait for an IMB, from whatever address: no earlier IMBRange covers this write
(20_memory.md R114). -/
def State.markStale (s : State) (pa : Word) : State :=
  s.withStale ({ pa := wordAligned pa, covered := [] } :: s.stale.filter fun w => w.pa != wordAligned pa)

/-- The fetch of the word at `pa` from the address `va` must wait for an IMB (20_memory.md R114, R115; log 22). -/
def staleAt (s : State) (va pa : Word) : Bool := s.stale.any fun w => w.pa == pa && !w.covered.any (·.meets va)

/-- The present mapping of addresses, as a change puts it on record (48_swap_swi_imb.md R383; log 50). -/
def State.mapping (s : State) : OldMapping :=
  { m := s.cp15.control.m, ttb := s.cp15.ttb, tlb := s.tlb, mem := s.mem, covered := [] }

/-- The mapping of before a change stays on record until an IMB (48_swap_swi_imb.md R383; log 50). -/
def State.remapped (s : State) (changed : Bool) : State :=
  if changed then s.withOldMaps (s.mapping :: s.oldMaps) else s

/-- A write of the word at `pa` may change the mapping: the MMU is on, and a table walk may read the word
(48_swap_swi_imb.md R383; 20_memory.md R102, R103; log 50). -/
def remapsAt (s : State) (pa : Word) : Bool := s.cp15.control.m && tableWord s pa

/-- A barrier over the whole address space (48_swap_swi_imb.md R380, R382). -/
def State.barrier (s : State) : State := (s.withStale []).withOldMaps []

/-- A barrier over a range of addresses (48_swap_swi_imb.md R381, R382). -/
def State.barrierOver (s : State) (x : AddrRange) : State :=
  (s.withStale (s.stale.map fun w => { w with covered := x :: w.covered })).withOldMaps
    (s.oldMaps.map fun o => { o with covered := x :: o.covered })

/-- The state after a write that reached `r` and left memory `m`: no effect on ROM (20_memory.md R91); in RAM the word
awaits an IMB (R114), and so does the mapping where the word is one of its tables (48_swap_swi_imb.md R383). -/
def State.stored (s : State) (r : Reached) (m : Memory) : State :=
  if r.rom then s else ((s.remapped (remapsAt s r.pa)).withMem m).markStale r.pa

/-- `MemRead(addr, 4)` of the aligned word that holds `a` (20_memory.md R90); `kind` is `lockedRead` for a swap. -/
def loadWord (kind : AccessKind) (priv : Bool) (a : Word) (s : State) : Access Word :=
  (reach kind priv 4 (wordAligned a) s).bind fun r s' => .ok (s'.mem.readWord (wordCell r.pa)) s'

/-- `MemRead(a, 2)`, `a` even (20_memory.md R90). -/
def loadHalf (priv : Bool) (a : Word) (s : State) : Access (BitVec 16) :=
  (reach .read priv 2 a s).bind fun r s' => .ok (s'.mem.readHalf (halfCell s'.cp15.control.b r.pa)) s'

/-- `MemRead(a, 1)` (20_memory.md R90); `kind` is `lockedRead` for a swap. -/
def loadByte (kind : AccessKind) (priv : Bool) (a : Word) (s : State) : Access Byte :=
  (reach kind priv 1 a s).bind fun r s' => .ok (s'.mem.read (byteCell s'.cp15.control.b r.pa)) s'

/-- `MemWrite(addr, 4, v)` of the aligned word that holds `a` (20_memory.md R91). -/
def storeWord (priv : Bool) (a v : Word) (s : State) : Access Unit :=
  (reach .write priv 4 (wordAligned a) s).bind fun r s' =>
    .ok () (s'.stored r (s'.mem.writeWord (wordCell r.pa) v))

/-- `MemWrite(a, 2, v)`, `a` even (20_memory.md R91). -/
def storeHalf (priv : Bool) (a : Word) (v : BitVec 16) (s : State) : Access Unit :=
  (reach .write priv 2 a s).bind fun r s' =>
    .ok () (s'.stored r (s'.mem.writeHalf (halfCell s'.cp15.control.b r.pa) v))

/-- `MemWrite(a, 1, v)` (20_memory.md R91). -/
def storeByte (priv : Bool) (a : Word) (v : Byte) (s : State) : Access Unit :=
  (reach .write priv 1 a s).bind fun r s' =>
    .ok () (s'.stored r (s'.mem.write (byteCell s'.cp15.control.b r.pa) v))

/-- An access inside an instruction: go on with its value, or take the Data Abort with `far` as the fault address, or
stop (20_memory.md R90, R91; 60_exceptions.md R440). -/
def Access.run {α : Type} (x : Access α) (far : Word) (k : α → State → Result) : Result :=
  match x with
  | .ok v s => k v s
  | .abort f s => dataAbort f far s
  | .stuck r => .fault r
  | .refused r => .refused r

/-- The base written back where the transfer asks for it (45_single_data_transfer.md R292). -/
def State.writeBack (s : State) (ix : Indexing) (rn : Reg) (offaddr : Word) : State :=
  if writesBack ix then s.setReg rn offaddr else s

/-- A misaligned word rotated right by 8 times address bits 1:0 (45_single_data_transfer.md R296). -/
def rotateLoaded (a data : Word) : Word := data.rotateRight (8 * (a.extractLsb' 0 2).toNat)

/-- What STR and STM store for R15: the instruction's address plus 8 or plus 12, an OPEN parameter
(45_single_data_transfer.md R300; log 10). -/
def State.storedPc (s : State) : Word := s.pc + (if Config.pcStorePlus12 then 12#32 else 8#32)

/-- The value STR and STM store for a register, as mode `m` sees it (45_single_data_transfer.md R298, R300;
47_block_data_transfer.md R346). -/
def State.storeValueOf (s : State) (m : Mode) (n : Reg) : Word :=
  if isPc n then s.storedPc else s.readRegOf m n

end Sys2Proof.Machine
end

