-- ==== Sys2Proof/Machine/SingleTransfer.lean ====
section
/-! DEFINITION. Single data transfer: LDR, STR, LDRB, STRB and the translate forms (45_single_data_transfer.md R290 to
R305). In each, `priv` says whether the access is made with privilege: the current mode's, or none (R304). -/

namespace Sys2Proof.Machine

/-- A word loaded from memory into R15: refused when bits 1:0 are not zero (45_single_data_transfer.md R299, D25). -/
def loadPc (v : Word) (s : State) : Result := if misalignedWord v then .refused .pcLowBits else jump v s

/-- Word load (45_single_data_transfer.md R295, R296, R299, R302). -/
def transferLoadWord (priv : Bool) (ix : Indexing) (rn rd : Reg) (offset : Word) (s : State) : Result :=
  let a := transferAddr ix (s.readReg rn) offset
  if misalignedWord a && s.cp15.control.a then alignmentAbort a s
  else if misalignedWord a && isPc rd then .refused .misalignedPcLoad
  else
    (loadWord .read priv a s).run a fun data s' =>
      let t := s'.writeBack ix rn (offsetAddr ix (s.readReg rn) offset)
      if isPc rd then loadPc data t else advance (t.setReg rd (rotateLoaded a data))

/-- Byte load, zero-extended (45_single_data_transfer.md R297). -/
def transferLoadByte (priv : Bool) (ix : Indexing) (rn rd : Reg) (offset : Word) (s : State) : Result :=
  let a := transferAddr ix (s.readReg rn) offset
  (loadByte .read priv a s).run a fun data s' =>
    advance ((s'.writeBack ix rn (offsetAddr ix (s.readReg rn) offset)).setReg rd (data.setWidth 32))

/-- Word store; the low address bits are ignored (45_single_data_transfer.md R298, R300). -/
def transferStoreWord (priv : Bool) (ix : Indexing) (rn rd : Reg) (offset : Word) (s : State) : Result :=
  let a := transferAddr ix (s.readReg rn) offset
  if misalignedWord a && s.cp15.control.a then alignmentAbort a s
  else
    (storeWord priv a (s.storeValueOf s.cpsr.mode rd) s).run a fun _ s' =>
      advance (s'.writeBack ix rn (offsetAddr ix (s.readReg rn) offset))

/-- Byte store (45_single_data_transfer.md R301). -/
def transferStoreByte (priv : Bool) (ix : Indexing) (rn rd : Reg) (offset : Word) (s : State) : Result :=
  let a := transferAddr ix (s.readReg rn) offset
  (storeByte priv a ((s.readReg rd).extractLsb' 0 8) s).run a fun _ s' =>
    advance (s'.writeBack ix rn (offsetAddr ix (s.readReg rn) offset))

/-- LDRT, immediate offset (45_single_data_transfer.md R304). -/
def execLdrtImm (c : Cond) (u : Bool) (rn : Reg) (rd : Reg) (off : BitVec 12) (s : State) : Result :=
  whenPassed c s (allowing (singleImmOk true (translateIndexing u) rn rd) .transferOperands
    (transferLoadWord false (translateIndexing u) rn rd (offset12 off) s))

/-- LDRT, register offset (45_single_data_transfer.md R304). -/
def execLdrtReg (c : Cond) (u : Bool) (rn : Reg) (rd : Reg) (op : ShiftedReg) (s : State) : Result :=
  whenPassed c s (allowing (singleRegOk true (translateIndexing u) rn rd op.rm) .transferOperands
    (transferLoadWord false (translateIndexing u) rn rd (shiftedOffset op s) s))

/-- STRT, immediate offset (45_single_data_transfer.md R304). -/
def execStrtImm (c : Cond) (u : Bool) (rn : Reg) (rd : Reg) (off : BitVec 12) (s : State) : Result :=
  whenPassed c s (allowing (singleImmOk true (translateIndexing u) rn rd) .transferOperands
    (transferStoreWord false (translateIndexing u) rn rd (offset12 off) s))

/-- STRT, register offset (45_single_data_transfer.md R304). -/
def execStrtReg (c : Cond) (u : Bool) (rn : Reg) (rd : Reg) (op : ShiftedReg) (s : State) : Result :=
  whenPassed c s (allowing (singleRegOk true (translateIndexing u) rn rd op.rm) .transferOperands
    (transferStoreWord false (translateIndexing u) rn rd (shiftedOffset op s) s))

/-- LDRBT, immediate offset (45_single_data_transfer.md R304). -/
def execLdrbtImm (c : Cond) (u : Bool) (rn : Reg) (rd : Reg) (off : BitVec 12) (s : State) : Result :=
  whenPassed c s (allowing (singleImmOk true (translateIndexing u) rn rd) .transferOperands
    (transferLoadByte false (translateIndexing u) rn rd (offset12 off) s))

/-- LDRBT, register offset (45_single_data_transfer.md R304). -/
def execLdrbtReg (c : Cond) (u : Bool) (rn : Reg) (rd : Reg) (op : ShiftedReg) (s : State) : Result :=
  whenPassed c s (allowing (singleRegOk true (translateIndexing u) rn rd op.rm) .transferOperands
    (transferLoadByte false (translateIndexing u) rn rd (shiftedOffset op s) s))

/-- STRBT, immediate offset (45_single_data_transfer.md R304). -/
def execStrbtImm (c : Cond) (u : Bool) (rn : Reg) (rd : Reg) (off : BitVec 12) (s : State) : Result :=
  whenPassed c s (allowing (singleImmOk true (translateIndexing u) rn rd) .transferOperands
    (transferStoreByte false (translateIndexing u) rn rd (offset12 off) s))

/-- STRBT, register offset (45_single_data_transfer.md R304). -/
def execStrbtReg (c : Cond) (u : Bool) (rn : Reg) (rd : Reg) (op : ShiftedReg) (s : State) : Result :=
  whenPassed c s (allowing (singleRegOk true (translateIndexing u) rn rd op.rm) .transferOperands
    (transferStoreByte false (translateIndexing u) rn rd (shiftedOffset op s) s))

/-- LDR, immediate offset (45_single_data_transfer.md R295). -/
def execLdrImm (c : Cond) (ix : Indexing) (rn : Reg) (rd : Reg) (off : BitVec 12) (s : State) : Result :=
  whenPassed c s (allowing (singleImmOk false ix rn rd) .transferOperands
    (transferLoadWord s.privileged ix rn rd (offset12 off) s))

/-- LDR, register offset (45_single_data_transfer.md R295). -/
def execLdrReg (c : Cond) (ix : Indexing) (rn : Reg) (rd : Reg) (op : ShiftedReg) (s : State) : Result :=
  whenPassed c s (allowing (singleRegOk false ix rn rd op.rm) .transferOperands
    (transferLoadWord s.privileged ix rn rd (shiftedOffset op s) s))

/-- STR, immediate offset (45_single_data_transfer.md R298). -/
def execStrImm (c : Cond) (ix : Indexing) (rn : Reg) (rd : Reg) (off : BitVec 12) (s : State) : Result :=
  whenPassed c s (allowing (singleImmOk false ix rn rd) .transferOperands
    (transferStoreWord s.privileged ix rn rd (offset12 off) s))

/-- STR, register offset (45_single_data_transfer.md R298). -/
def execStrReg (c : Cond) (ix : Indexing) (rn : Reg) (rd : Reg) (op : ShiftedReg) (s : State) : Result :=
  whenPassed c s (allowing (singleRegOk false ix rn rd op.rm) .transferOperands
    (transferStoreWord s.privileged ix rn rd (shiftedOffset op s) s))

/-- LDRB, immediate offset (45_single_data_transfer.md R297). -/
def execLdrbImm (c : Cond) (ix : Indexing) (rn : Reg) (rd : Reg) (off : BitVec 12) (s : State) : Result :=
  whenPassed c s (allowing (singleImmOk true ix rn rd) .transferOperands
    (transferLoadByte s.privileged ix rn rd (offset12 off) s))

/-- LDRB, register offset (45_single_data_transfer.md R297). -/
def execLdrbReg (c : Cond) (ix : Indexing) (rn : Reg) (rd : Reg) (op : ShiftedReg) (s : State) : Result :=
  whenPassed c s (allowing (singleRegOk true ix rn rd op.rm) .transferOperands
    (transferLoadByte s.privileged ix rn rd (shiftedOffset op s) s))

/-- STRB, immediate offset (45_single_data_transfer.md R301). -/
def execStrbImm (c : Cond) (ix : Indexing) (rn : Reg) (rd : Reg) (off : BitVec 12) (s : State) : Result :=
  whenPassed c s (allowing (singleImmOk true ix rn rd) .transferOperands
    (transferStoreByte s.privileged ix rn rd (offset12 off) s))

/-- STRB, register offset (45_single_data_transfer.md R301). -/
def execStrbReg (c : Cond) (ix : Indexing) (rn : Reg) (rd : Reg) (op : ShiftedReg) (s : State) : Result :=
  whenPassed c s (allowing (singleRegOk true ix rn rd op.rm) .transferOperands
    (transferStoreByte s.privileged ix rn rd (shiftedOffset op s) s))

end Sys2Proof.Machine
end

