-- ==== Sys2Proof/Machine/BlockTransfer.lean ====
section
/-! DEFINITION. Block data transfer: LDM and STM (47_block_data_transfer.md R340 to R355). -/

namespace Sys2Proof.Machine

/-- How the transfers of a block end: all made, or aborted at one of them (with its address), or stopped. `v` is what the
completed transfers gave. -/
inductive BlockEnd (α : Type) where
  | done (v : α) (s : State)
  | aborted (v : α) (far : Word) (f : Option FaultStatus) (s : State)
  | stuck (r : Fault)
  | refused (r : Refusal)
  deriving DecidableEq, Repr

/-- A loaded register, not yet written. -/
structure Loaded where
  reg   : Reg
  value : Word
  deriving DecidableEq, Repr

/-- One more completed transfer before the others. -/
def BlockEnd.cons (x : Loaded) (e : BlockEnd (List Loaded)) : BlockEnd (List Loaded) :=
  match e with
  | .done vs s => .done (x :: vs) s
  | .aborted vs far f s => .aborted (x :: vs) far f s
  | .stuck r => .stuck r
  | .refused r => .refused r

/-- The reads of an LDM, ascending from address `a` (47_block_data_transfer.md R341, R344). -/
def readBlock : List Reg → Word → State → BlockEnd (List Loaded)
  | [], _, s => .done [] s
  | r :: rs, a, s =>
    match loadWord .read s.privileged a s with
    | .ok v s' => (readBlock rs (a + 4#32) s').cons { reg := r, value := v }
    | .abort f s' => .aborted [] (wordAligned a) f s'
    | .stuck x => .stuck x
    | .refused x => .refused x

/-- The loaded registers written into the bank of mode `m`; R15 is not among them (47_block_data_transfer.md R344,
R350). -/
def writeLoaded (m : Mode) : List Loaded → State → State
  | [], s => s
  | x :: xs, s => writeLoaded m xs (if isPc x.reg then s else s.setRegOf m x.reg x.value)

/-- The registers of the completed transfers of an aborted LDM: each, but the base and R15, keeps its old value or has
the loaded one, by a draw (47_block_data_transfer.md R353; log 13). -/
def leaveLoaded (m : Mode) (base : Option PReg) : List Loaded → State → State
  | [], s => s
  | x :: xs, s =>
    if isPc x.reg || m.bank x.reg == base then leaveLoaded m base xs s
    else leaveLoaded m base xs (if s.draw.getLsbD 0 then s.drawn.setRegOf m x.reg x.value else s.drawn)

/-- The bank the registers of a block transfer belong to: User's with S, unless R15 is loaded
(47_block_data_transfer.md R349, R350, R351). -/
def blockBank (load : Bool) (bm : BlockMode) (list : BitVec 16) (m : Mode) : Mode :=
  if bm.s && !(load && inList list 15#4) then .usr else m

/-- R15 loaded by an LDM: an exception return with S (47_block_data_transfer.md R348, R349). -/
def loadBlockPc (sBit : Bool) (v : Word) (s : State) : Result :=
  if misalignedWord v then .refused .pcLowBits else if sBit then returnTo v s else jump v s

/-- The base written back when W is set (47_block_data_transfer.md R344, R346). -/
def blockWriteBack (bm : BlockMode) (rn : Reg) (list : BitVec 16) (base : Word) (s : State) : State :=
  if bm.w then s.setReg rn (blockWritten bm base list) else s

/-- The end of an LDM whose reads all succeeded: base, then registers, then R15 (47_block_data_transfer.md R344, R348,
R349); a User-bank LDM starts the hazard of 70_reset_and_hazards.md R506. -/
def finishLoad (bm : BlockMode) (rn : Reg) (list : BitVec 16) (base : Word) (vs : List Loaded) (s : State) : Result :=
  let t := writeLoaded (blockBank true bm list s.cpsr.mode) vs (blockWriteBack bm rn list base s)
  match vs.find? fun x => isPc x.reg with
  | some x => loadBlockPc bm.s x.value t
  | none => advance (t.withBankHazard bm.s)

/-- The transfers of an LDM (47_block_data_transfer.md R341, R344, R353). -/
def loadBlock (bm : BlockMode) (rn : Reg) (list : BitVec 16) (s : State) : Result :=
  let base := s.readReg rn
  match readBlock (regsOf list) (blockStart bm base list) s with
  | .done vs s' => finishLoad bm rn list base vs s'
  | .aborted vs far f s' =>
    dataAbort f far
      (leaveLoaded (blockBank true bm list s.cpsr.mode) (s.cpsr.mode.bank rn) vs s')
  | .stuck r => .fault r
  | .refused r => .refused r

/-- A misaligned base: a Data Abort before any transfer with alignment checking on; else ignored, but a load of R15 is
refused (47_block_data_transfer.md R341, R348; 93_implementation_defined.md U33). -/
def whenBaseAligned (loadsPc : Bool) (base start : Word) (s : State) (k : Result) : Result :=
  if misalignedWord base then
    (if s.cp15.control.a then alignmentAbort start s
     else if loadsPc then .refused .misalignedPcLoad else k)
  else k

/-- LDM (47_block_data_transfer.md R342, R344, R348 to R350, R353). -/
def execLdm (c : Cond) (bm : BlockMode) (rn : Reg) (list : BitVec 16) (s : State) : Result :=
  whenPassed c s
    (allowing (loadBlockOk bm rn list) .blockOperands
      (allowing (blockModeOk bm s.cpsr.mode) .userBlockMode
        (allowing (blockFits (blockStart bm (s.readReg rn) list) list) .transferWraps
          (whenBaseAligned (inList list 15#4) (s.readReg rn) (blockStart bm (s.readReg rn) list) s
            (loadBlock bm rn list s)))))

/-- The words after the aborting one of an STM: each is left or written, by a draw, where it can be written at all
(47_block_data_transfer.md R354; log 13). -/
def leaveStored : List Word → Word → State → State
  | [], _, s => s
  | v :: vs, a, s =>
    if s.draw.getLsbD 0 then
      match storeWord s.privileged a v s.drawn with
      | .ok _ s' => leaveStored vs (a + 4#32) s'
      | _ => leaveStored vs (a + 4#32) s.drawn
    else leaveStored vs (a + 4#32) s.drawn

/-- The writes of an STM, ascending from address `a` (47_block_data_transfer.md R341, R346, R354). -/
def writeBlock : List Word → Word → State → BlockEnd Unit
  | [], _, s => .done () s
  | v :: vs, a, s =>
    match storeWord s.privileged a v s with
    | .ok _ s' => writeBlock vs (a + 4#32) s'
    | .abort f s' => .aborted () (wordAligned a) f (leaveStored vs (a + 4#32) s')
    | .stuck x => .stuck x
    | .refused x => .refused x

/-- The values an STM stores, as they are at its start (47_block_data_transfer.md R346, R351). -/
def storedValues (bm : BlockMode) (list : BitVec 16) (s : State) : List Word :=
  (regsOf list).map (s.storeValueOf (blockBank false bm list s.cpsr.mode))

/-- The transfers of an STM (47_block_data_transfer.md R341, R346, R354). -/
def storeBlock (bm : BlockMode) (rn : Reg) (list : BitVec 16) (s : State) : Result :=
  let base := s.readReg rn
  match writeBlock (storedValues bm list s) (blockStart bm base list) s with
  | .done _ s' => advance (blockWriteBack bm rn list base s')
  | .aborted _ far f s' => dataAbort f far s'
  | .stuck r => .fault r
  | .refused r => .refused r

/-- STM (47_block_data_transfer.md R342, R346, R351, R354). -/
def execStm (c : Cond) (bm : BlockMode) (rn : Reg) (list : BitVec 16) (s : State) : Result :=
  whenPassed c s
    (allowing (storeBlockOk bm rn list) .blockOperands
      (allowing (blockModeOk bm s.cpsr.mode) .userBlockMode
        (allowing (blockFits (blockStart bm (s.readReg rn) list) list) .transferWraps
          (whenBaseAligned false (s.readReg rn) (blockStart bm (s.readReg rn) list) s
            (storeBlock bm rn list s)))))

end Sys2Proof.Machine
end

