-- ==== Sys2Proof/Machine/Branch.lean ====
section
/-! DEFINITION. Branch and Branch with Link (41_branch.md R190 to R194). -/

namespace Sys2Proof.Machine

/-- The target lies in the address space over the integers (41_branch.md R191). -/
def branchFits (pc : Word) (off : BitVec 24) : Bool :=
  decide (0 ≤ branchSum pc off) && decide (branchSum pc off ≤ 0xFFFFFFFC)

/-- A taken branch to the offset's target (41_branch.md R191). -/
def takeBranch (off : BitVec 24) (s : State) : Result := jump (branchTarget s.pc off) s

/-- B (41_branch.md R191). -/
def execB (c : Cond) (off : BitVec 24) (s : State) : Result :=
  whenPassed c s (allowing (branchFits s.pc off) .branchWraps (takeBranch off s))

/-- BL: R14 of the current mode receives the address of the next instruction (41_branch.md R192). -/
def execBl (c : Cond) (off : BitVec 24) (s : State) : Result :=
  whenPassed c s (allowing (branchFits s.pc off) .branchWraps
    (takeBranch off (s.setReg 14#4 (s.pc + 4#32))))

end Sys2Proof.Machine
end

