-- ==== Sys2Proof/Machine/Coprocessor.lean ====
section
/-! DEFINITION. The coprocessor instructions and the undefined instruction (49_coprocessor_undefined.md R390 to R401;
10_state.md R60 to R71). -/

namespace Sys2Proof.Machine

/-- The control register as a word: its bits at the places of 10_state.md R63, the other bits those of `free`: the reserved
bits 31:12, bits 6:4, which R63 calls uncertain for this part, and the implementation-defined bit 10 (F). DESIGN CHOICE,
log 11. -/
def controlWord (k : Control) (free : Word) : Word :=
  free.extractLsb' 12 20 ++ BitVec.ofBool k.z ++ free.extractLsb' 10 1 ++ BitVec.ofBool k.r ++ BitVec.ofBool k.s ++
    BitVec.ofBool k.b ++ free.extractLsb' 4 3 ++ BitVec.ofBool k.w ++ BitVec.ofBool k.c ++ BitVec.ofBool k.a ++
    BitVec.ofBool k.m

/-- The control register that a word writes (10_state.md R63); bits 31:12, 10 and 6:4 are dropped. DESIGN CHOICE, log 11. -/
def controlOf (v : Word) : Control :=
  { m := v.getLsbD 0, a := v.getLsbD 1, c := v.getLsbD 2, w := v.getLsbD 3, b := v.getLsbD 7, s := v.getLsbD 8,
    r := v.getLsbD 9, z := v.getLsbD 11 }

/-- The read view of a CP15 register, its reserved bits those of `free`; none where it is reserved or write-only
(10_state.md R61 to R71). -/
def cp15Read (s : State) (crn : BitVec 4) (free : Word) : Option Word :=
  match crn.toNat with
  | 0 => some s.plat.cp15Id
  | 1 => some (controlWord s.cp15.control free)
  | 2 => some (s.cp15.ttb ++ free.extractLsb' 0 14)
  | 3 => some s.cp15.dac
  | 5 => some (free.extractLsb' 9 23 ++ 0#1 ++ s.cp15.fsrDomain ++ s.cp15.fsrStatus)
  | 6 => some s.cp15.far
  | _ => none

/-- A cache operation: without effect on what a program sees (10_state.md R68; 20_memory.md R110). -/
def cacheOp (crm : BitVec 4) (op2 : BitVec 3) (s : State) : Result :=
  if s.plat.c7Ops.contains { crm := crm, op2 := op2 } then advance s else .refused .cp15Operation

/-- A TLB operation: the whole TLB, or the entry that matches the virtual address `v`, is invalidated (10_state.md R69);
with the MMU on that may change the mapping (48_swap_swi_imb.md R383). R69 speaks of one matching entry; where several
cached translations cover `v`, a single-entry operation drops all of them: DESIGN CHOICE, log 19. -/
def tlbOp (crm : BitVec 4) (op2 : BitVec 3) (v : Word) (s : State) : Result :=
  match s.plat.c8Ops.find? fun x => x.crm == crm && x.op2 == op2 with
  | none => .refused .cp15Operation
  | some x =>
    match x.op with
    | .whole => advance ((s.remapped s.cp15.control.m).withTlb [])
    | .entry => advance ((s.remapped s.cp15.control.m).withTlb (s.tlb.filter fun e => !e.covers v))

/-- The write view of a CP15 register: reserved bits dropped (49_coprocessor_undefined.md R392; 10_state.md R61 to
R71). A write of c1 takes effect for the instructions that follow (R392; log 20); one that turns the MMU on or off, and
with the MMU on a write of another table base, changes the mapping (48_swap_swi_imb.md R383; 70_reset_and_hazards.md R505). -/
def cp15Write (crn crm : BitVec 4) (op2 : BitVec 3) (v : Word) (s : State) : Result :=
  match crn.toNat with
  | 1 =>
    advance ((s.remapped ((controlOf v).m != s.cp15.control.m)).withCp15 { s.cp15 with control := controlOf v })
  | 2 =>
    advance ((s.remapped (s.cp15.control.m && v.extractLsb' 14 18 != s.cp15.ttb)).withCp15
      { s.cp15 with ttb := v.extractLsb' 14 18 })
  | 3 => advance (s.withCp15 { s.cp15 with dac := v })
  | 5 => advance (s.withCp15 { s.cp15 with fsrStatus := v.extractLsb' 0 4, fsrDomain := v.extractLsb' 4 4 })
  | 6 => advance (s.withCp15 { s.cp15 with far := v })
  | 7 => cacheOp crm op2 s
  | 8 => tlbOp crm op2 v s
  | _ => .refused .cp15Register

/-- The value an MRC transfers: to `Rd`, or to the flags when `Rd` is R15 (49_coprocessor_undefined.md R391, R396). -/
def writeMrc (rd : Reg) (v : Word) (s : State) : Result :=
  if isPc rd then advance (s.withFlags (Flags.ofWord v)) else advance (s.setReg rd v)

/-- MRC from CP15; the undefined instruction trap in User mode (49_coprocessor_undefined.md R391, R398 a). The fields
opcode_1, CRm and opcode_2 do not select: log 36. -/
def execMrc (c : Cond) (_op1 : BitVec 3) (crn : BitVec 4) (rd : Reg) (_op2 : BitVec 3) (_crm : BitVec 4) (s : State) :
    Result :=
  whenPassed c s
    (if s.privileged then
      match cp15Read s crn s.draw with
      | none => .refused .cp15Register
      | some v => writeMrc rd v s.drawn
    else undefinedTrap s)

/-- MCR to CP15; the undefined instruction trap in User mode (49_coprocessor_undefined.md R392, R398 a). CRm and
opcode_2 select an operation for c7 and c8 only: log 36. -/
def execMcr (c : Cond) (_op1 : BitVec 3) (crn : BitVec 4) (rd : Reg) (op2 : BitVec 3) (crm : BitVec 4) (s : State) :
    Result :=
  whenPassed c s
    (if s.privileged then
      allowing (!isPc rd) .r15Operand (cp15Write crn crm op2 (s.readReg rd) s)
    else undefinedTrap s)

/-- The undefined instruction (49_coprocessor_undefined.md R400). -/
def execUndefined (c : Cond) (_hi : BitVec 20) (_lo : BitVec 4) (s : State) : Result :=
  whenPassed c s (undefinedTrap s)

/-- LDC: no coprocessor takes it (49_coprocessor_undefined.md R399). -/
def execLdc (c : Cond) (_p : Bool) (_u : Bool) (_n : Bool) (_w : Bool) (_rn : Reg) (_crd : BitVec 4)
    (_cp : BitVec 4) (_off : BitVec 8) (s : State) : Result :=
  whenPassed c s (undefinedTrap s)

/-- STC: no coprocessor takes it (49_coprocessor_undefined.md R399). -/
def execStc (c : Cond) (_p : Bool) (_u : Bool) (_n : Bool) (_w : Bool) (_rn : Reg) (_crd : BitVec 4)
    (_cp : BitVec 4) (_off : BitVec 8) (s : State) : Result :=
  whenPassed c s (undefinedTrap s)

/-- CDP: no coprocessor takes it (49_coprocessor_undefined.md R399). -/
def execCdp (c : Cond) (_op1 : BitVec 4) (_crn : BitVec 4) (_crd : BitVec 4) (_cp : BitVec 4) (_op2 : BitVec 3)
    (_crm : BitVec 4) (s : State) : Result :=
  whenPassed c s (undefinedTrap s)

/-- MRC to a coprocessor other than 15 (49_coprocessor_undefined.md R398 b). -/
def execMrcOther (c : Cond) (_op1 : BitVec 3) (_crn : BitVec 4) (_rd : Reg) (_cp : BitVec 4) (_op2 : BitVec 3)
    (_crm : BitVec 4) (s : State) : Result :=
  whenPassed c s (undefinedTrap s)

/-- MCR to a coprocessor other than 15 (49_coprocessor_undefined.md R398 b). -/
def execMcrOther (c : Cond) (_op1 : BitVec 3) (_crn : BitVec 4) (_rd : Reg) (_cp : BitVec 4) (_op2 : BitVec 3)
    (_crm : BitVec 4) (s : State) : Result :=
  whenPassed c s (undefinedTrap s)

end Sys2Proof.Machine
end

