-- ==== Sys2Proof/Machine/DataProcessing.lean ====
section
/-! DEFINITION. The sixteen data-processing instructions, each in three forms (42_data_processing.md R200 to R232). -/

namespace Sys2Proof.Machine

/-- The effect of a result: TST, TEQ, CMP and CMN write the flags only; a write of R15 is a branch, with S an exception
return; S writes the flags otherwise (42_data_processing.md R212, R213). -/
def writeAlu (op : DpOp) (sf : Bool) (rd : Reg) (x : AluOut) (s : State) : Result :=
  if op.compares then advance (s.withFlags x.flags)
  else if isPc rd then (if sf then returnTo x.result s else jump x.result s)
  else advance ((if sf then s.withFlags x.flags else s).setReg rd x.result)

/-- The operation on `x[Rn]` and the shifter's output (42_data_processing.md R200, R232). -/
def dataProcess (op : DpOp) (sf : Bool) (rn rd : Reg) (sh : ShifterOut) (s : State) : Result :=
  writeAlu op sf rd (alu op (s.readReg rn) sh s.cpsr.flags) s

/-- Format DPI (42_data_processing.md R204). -/
def dataImm (op : DpOp) (c : Cond) (sf : Bool) (rn rd : Reg) (imm : RotatedImm) (s : State) : Result :=
  whenPassed c s (dataProcess op sf rn rd (immOperand imm s.cpsr.flags.c) s)

/-- Format DPS (42_data_processing.md R206, R210). -/
def dataReg (op : DpOp) (c : Cond) (sf : Bool) (rn rd : Reg) (sh : ShiftedReg) (s : State) : Result :=
  whenPassed c s (dataProcess op sf rn rd (shiftedOperand sh s) s)

/-- Format DPR, R15 refused (42_data_processing.md R207, R211). -/
def dataRsr (op : DpOp) (c : Cond) (sf : Bool) (rn rd : Reg) (sh : RegShiftedReg) (s : State) : Result :=
  whenPassed c s (allowing (regShiftOk rn rd sh) .r15WithRegisterShift
    (dataProcess op sf rn rd (regShiftedOperand sh s) s))

/-- AND, immediate (42_data_processing.md R214). -/
def execAndImm (c : Cond) (sf : Bool) (rn : Reg) (rd : Reg) (op : RotatedImm) (s : State) : Result :=
  dataImm .and c sf rn rd op s

/-- AND, register shifted by an immediate (42_data_processing.md R214). -/
def execAndReg (c : Cond) (sf : Bool) (rn : Reg) (rd : Reg) (op : ShiftedReg) (s : State) : Result :=
  dataReg .and c sf rn rd op s

/-- AND, register shifted by a register (42_data_processing.md R214). -/
def execAndRsr (c : Cond) (sf : Bool) (rn : Reg) (rd : Reg) (op : RegShiftedReg) (s : State) : Result :=
  dataRsr .and c sf rn rd op s

/-- EOR, immediate (42_data_processing.md R215). -/
def execEorImm (c : Cond) (sf : Bool) (rn : Reg) (rd : Reg) (op : RotatedImm) (s : State) : Result :=
  dataImm .eor c sf rn rd op s

/-- EOR, register shifted by an immediate (42_data_processing.md R215). -/
def execEorReg (c : Cond) (sf : Bool) (rn : Reg) (rd : Reg) (op : ShiftedReg) (s : State) : Result :=
  dataReg .eor c sf rn rd op s

/-- EOR, register shifted by a register (42_data_processing.md R215). -/
def execEorRsr (c : Cond) (sf : Bool) (rn : Reg) (rd : Reg) (op : RegShiftedReg) (s : State) : Result :=
  dataRsr .eor c sf rn rd op s

/-- SUB, immediate (42_data_processing.md R216). -/
def execSubImm (c : Cond) (sf : Bool) (rn : Reg) (rd : Reg) (op : RotatedImm) (s : State) : Result :=
  dataImm .sub c sf rn rd op s

/-- SUB, register shifted by an immediate (42_data_processing.md R216). -/
def execSubReg (c : Cond) (sf : Bool) (rn : Reg) (rd : Reg) (op : ShiftedReg) (s : State) : Result :=
  dataReg .sub c sf rn rd op s

/-- SUB, register shifted by a register (42_data_processing.md R216). -/
def execSubRsr (c : Cond) (sf : Bool) (rn : Reg) (rd : Reg) (op : RegShiftedReg) (s : State) : Result :=
  dataRsr .sub c sf rn rd op s

/-- RSB, immediate (42_data_processing.md R217). -/
def execRsbImm (c : Cond) (sf : Bool) (rn : Reg) (rd : Reg) (op : RotatedImm) (s : State) : Result :=
  dataImm .rsb c sf rn rd op s

/-- RSB, register shifted by an immediate (42_data_processing.md R217). -/
def execRsbReg (c : Cond) (sf : Bool) (rn : Reg) (rd : Reg) (op : ShiftedReg) (s : State) : Result :=
  dataReg .rsb c sf rn rd op s

/-- RSB, register shifted by a register (42_data_processing.md R217). -/
def execRsbRsr (c : Cond) (sf : Bool) (rn : Reg) (rd : Reg) (op : RegShiftedReg) (s : State) : Result :=
  dataRsr .rsb c sf rn rd op s

/-- ADD, immediate (42_data_processing.md R218). -/
def execAddImm (c : Cond) (sf : Bool) (rn : Reg) (rd : Reg) (op : RotatedImm) (s : State) : Result :=
  dataImm .add c sf rn rd op s

/-- ADD, register shifted by an immediate (42_data_processing.md R218). -/
def execAddReg (c : Cond) (sf : Bool) (rn : Reg) (rd : Reg) (op : ShiftedReg) (s : State) : Result :=
  dataReg .add c sf rn rd op s

/-- ADD, register shifted by a register (42_data_processing.md R218). -/
def execAddRsr (c : Cond) (sf : Bool) (rn : Reg) (rd : Reg) (op : RegShiftedReg) (s : State) : Result :=
  dataRsr .add c sf rn rd op s

/-- ADC, immediate (42_data_processing.md R219). -/
def execAdcImm (c : Cond) (sf : Bool) (rn : Reg) (rd : Reg) (op : RotatedImm) (s : State) : Result :=
  dataImm .adc c sf rn rd op s

/-- ADC, register shifted by an immediate (42_data_processing.md R219). -/
def execAdcReg (c : Cond) (sf : Bool) (rn : Reg) (rd : Reg) (op : ShiftedReg) (s : State) : Result :=
  dataReg .adc c sf rn rd op s

/-- ADC, register shifted by a register (42_data_processing.md R219). -/
def execAdcRsr (c : Cond) (sf : Bool) (rn : Reg) (rd : Reg) (op : RegShiftedReg) (s : State) : Result :=
  dataRsr .adc c sf rn rd op s

/-- SBC, immediate (42_data_processing.md R220). -/
def execSbcImm (c : Cond) (sf : Bool) (rn : Reg) (rd : Reg) (op : RotatedImm) (s : State) : Result :=
  dataImm .sbc c sf rn rd op s

/-- SBC, register shifted by an immediate (42_data_processing.md R220). -/
def execSbcReg (c : Cond) (sf : Bool) (rn : Reg) (rd : Reg) (op : ShiftedReg) (s : State) : Result :=
  dataReg .sbc c sf rn rd op s

/-- SBC, register shifted by a register (42_data_processing.md R220). -/
def execSbcRsr (c : Cond) (sf : Bool) (rn : Reg) (rd : Reg) (op : RegShiftedReg) (s : State) : Result :=
  dataRsr .sbc c sf rn rd op s

/-- RSC, immediate (42_data_processing.md R221). -/
def execRscImm (c : Cond) (sf : Bool) (rn : Reg) (rd : Reg) (op : RotatedImm) (s : State) : Result :=
  dataImm .rsc c sf rn rd op s

/-- RSC, register shifted by an immediate (42_data_processing.md R221). -/
def execRscReg (c : Cond) (sf : Bool) (rn : Reg) (rd : Reg) (op : ShiftedReg) (s : State) : Result :=
  dataReg .rsc c sf rn rd op s

/-- RSC, register shifted by a register (42_data_processing.md R221). -/
def execRscRsr (c : Cond) (sf : Bool) (rn : Reg) (rd : Reg) (op : RegShiftedReg) (s : State) : Result :=
  dataRsr .rsc c sf rn rd op s

/-- TST, immediate (42_data_processing.md R222). -/
def execTstImm (c : Cond) (rn : Reg) (op : RotatedImm) (s : State) : Result :=
  dataImm .tst c true rn 0#4 op s

/-- TST, register shifted by an immediate (42_data_processing.md R222). -/
def execTstReg (c : Cond) (rn : Reg) (op : ShiftedReg) (s : State) : Result :=
  dataReg .tst c true rn 0#4 op s

/-- TST, register shifted by a register (42_data_processing.md R222). -/
def execTstRsr (c : Cond) (rn : Reg) (op : RegShiftedReg) (s : State) : Result :=
  dataRsr .tst c true rn 0#4 op s

/-- TEQ, immediate (42_data_processing.md R223). -/
def execTeqImm (c : Cond) (rn : Reg) (op : RotatedImm) (s : State) : Result :=
  dataImm .teq c true rn 0#4 op s

/-- TEQ, register shifted by an immediate (42_data_processing.md R223). -/
def execTeqReg (c : Cond) (rn : Reg) (op : ShiftedReg) (s : State) : Result :=
  dataReg .teq c true rn 0#4 op s

/-- TEQ, register shifted by a register (42_data_processing.md R223). -/
def execTeqRsr (c : Cond) (rn : Reg) (op : RegShiftedReg) (s : State) : Result :=
  dataRsr .teq c true rn 0#4 op s

/-- CMP, immediate (42_data_processing.md R224). -/
def execCmpImm (c : Cond) (rn : Reg) (op : RotatedImm) (s : State) : Result :=
  dataImm .cmp c true rn 0#4 op s

/-- CMP, register shifted by an immediate (42_data_processing.md R224). -/
def execCmpReg (c : Cond) (rn : Reg) (op : ShiftedReg) (s : State) : Result :=
  dataReg .cmp c true rn 0#4 op s

/-- CMP, register shifted by a register (42_data_processing.md R224). -/
def execCmpRsr (c : Cond) (rn : Reg) (op : RegShiftedReg) (s : State) : Result :=
  dataRsr .cmp c true rn 0#4 op s

/-- CMN, immediate (42_data_processing.md R225). -/
def execCmnImm (c : Cond) (rn : Reg) (op : RotatedImm) (s : State) : Result :=
  dataImm .cmn c true rn 0#4 op s

/-- CMN, register shifted by an immediate (42_data_processing.md R225). -/
def execCmnReg (c : Cond) (rn : Reg) (op : ShiftedReg) (s : State) : Result :=
  dataReg .cmn c true rn 0#4 op s

/-- CMN, register shifted by a register (42_data_processing.md R225). -/
def execCmnRsr (c : Cond) (rn : Reg) (op : RegShiftedReg) (s : State) : Result :=
  dataRsr .cmn c true rn 0#4 op s

/-- ORR, immediate (42_data_processing.md R226). -/
def execOrrImm (c : Cond) (sf : Bool) (rn : Reg) (rd : Reg) (op : RotatedImm) (s : State) : Result :=
  dataImm .orr c sf rn rd op s

/-- ORR, register shifted by an immediate (42_data_processing.md R226). -/
def execOrrReg (c : Cond) (sf : Bool) (rn : Reg) (rd : Reg) (op : ShiftedReg) (s : State) : Result :=
  dataReg .orr c sf rn rd op s

/-- ORR, register shifted by a register (42_data_processing.md R226). -/
def execOrrRsr (c : Cond) (sf : Bool) (rn : Reg) (rd : Reg) (op : RegShiftedReg) (s : State) : Result :=
  dataRsr .orr c sf rn rd op s

/-- MOV, immediate (42_data_processing.md R227). -/
def execMovImm (c : Cond) (sf : Bool) (rd : Reg) (op : RotatedImm) (s : State) : Result :=
  dataImm .mov c sf 0#4 rd op s

/-- MOV, register shifted by an immediate (42_data_processing.md R227). -/
def execMovReg (c : Cond) (sf : Bool) (rd : Reg) (op : ShiftedReg) (s : State) : Result :=
  dataReg .mov c sf 0#4 rd op s

/-- MOV, register shifted by a register (42_data_processing.md R227). -/
def execMovRsr (c : Cond) (sf : Bool) (rd : Reg) (op : RegShiftedReg) (s : State) : Result :=
  dataRsr .mov c sf 0#4 rd op s

/-- BIC, immediate (42_data_processing.md R228). -/
def execBicImm (c : Cond) (sf : Bool) (rn : Reg) (rd : Reg) (op : RotatedImm) (s : State) : Result :=
  dataImm .bic c sf rn rd op s

/-- BIC, register shifted by an immediate (42_data_processing.md R228). -/
def execBicReg (c : Cond) (sf : Bool) (rn : Reg) (rd : Reg) (op : ShiftedReg) (s : State) : Result :=
  dataReg .bic c sf rn rd op s

/-- BIC, register shifted by a register (42_data_processing.md R228). -/
def execBicRsr (c : Cond) (sf : Bool) (rn : Reg) (rd : Reg) (op : RegShiftedReg) (s : State) : Result :=
  dataRsr .bic c sf rn rd op s

/-- MVN, immediate (42_data_processing.md R229). -/
def execMvnImm (c : Cond) (sf : Bool) (rd : Reg) (op : RotatedImm) (s : State) : Result :=
  dataImm .mvn c sf 0#4 rd op s

/-- MVN, register shifted by an immediate (42_data_processing.md R229). -/
def execMvnReg (c : Cond) (sf : Bool) (rd : Reg) (op : ShiftedReg) (s : State) : Result :=
  dataReg .mvn c sf 0#4 rd op s

/-- MVN, register shifted by a register (42_data_processing.md R229). -/
def execMvnRsr (c : Cond) (sf : Bool) (rd : Reg) (op : RegShiftedReg) (s : State) : Result :=
  dataRsr .mvn c sf 0#4 rd op s

end Sys2Proof.Machine
end

