-- ==== Sys2Proof/Machine/HalfwordTransfer.lean ====
section
/-! DEFINITION. Halfword and signed data transfer: LDRH, STRH, LDRSB, LDRSH (46_halfword_signed_transfer.md R320 to
R329). -/

namespace Sys2Proof.Machine

/-- A half-word access at an odd address: a Data Abort with alignment checking on, else refused
(46_halfword_signed_transfer.md R323 e). -/
def whenEven (a : Word) (s : State) (k : Result) : Result :=
  if misalignedHalf a then
    (if s.cp15.control.a then alignmentAbort a s else .refused .misalignedHalfword)
  else k

/-- Half-word load, extended by `widen` (46_halfword_signed_transfer.md R325, R328). -/
def transferLoadHalf (widen : BitVec 16 → Word) (ix : Indexing) (rn rd : Reg) (offset : Word) (s : State) : Result :=
  let a := transferAddr ix (s.readReg rn) offset
  whenEven a s
    ((loadHalf s.privileged a s).run a fun data s' =>
      advance ((s'.writeBack ix rn (offsetAddr ix (s.readReg rn) offset)).setReg rd (widen data)))

/-- Signed byte load (46_halfword_signed_transfer.md R327). -/
def transferLoadSignedByte (ix : Indexing) (rn rd : Reg) (offset : Word) (s : State) : Result :=
  let a := transferAddr ix (s.readReg rn) offset
  (loadByte .read s.privileged a s).run a fun data s' =>
    advance ((s'.writeBack ix rn (offsetAddr ix (s.readReg rn) offset)).setReg rd (data.signExtend 32))

/-- Half-word store (46_halfword_signed_transfer.md R326). -/
def transferStoreHalf (ix : Indexing) (rn rd : Reg) (offset : Word) (s : State) : Result :=
  let a := transferAddr ix (s.readReg rn) offset
  whenEven a s
    ((storeHalf s.privileged a ((s.readReg rd).extractLsb' 0 16) s).run a fun _ s' =>
      advance (s'.writeBack ix rn (offsetAddr ix (s.readReg rn) offset)))

/-- STRH, register offset (46_halfword_signed_transfer.md R326). -/
def execStrhReg (c : Cond) (ix : Indexing) (rn : Reg) (rd : Reg) (rm : Reg) (s : State) : Result :=
  whenPassed c s (allowing (halfRegOk ix rn rd rm) .halfwordOperands
    (transferStoreHalf ix rn rd (s.readReg rm) s))

/-- STRH, immediate offset (46_halfword_signed_transfer.md R326). -/
def execStrhImm (c : Cond) (ix : Indexing) (rn : Reg) (rd : Reg) (off : BitVec 8) (s : State) : Result :=
  whenPassed c s (allowing (halfImmOk ix rn rd) .halfwordOperands
    (transferStoreHalf ix rn rd (offset8 off) s))

/-- LDRH, register offset (46_halfword_signed_transfer.md R325). -/
def execLdrhReg (c : Cond) (ix : Indexing) (rn : Reg) (rd : Reg) (rm : Reg) (s : State) : Result :=
  whenPassed c s (allowing (halfRegOk ix rn rd rm) .halfwordOperands
    (transferLoadHalf (BitVec.setWidth 32) ix rn rd (s.readReg rm) s))

/-- LDRH, immediate offset (46_halfword_signed_transfer.md R325). -/
def execLdrhImm (c : Cond) (ix : Indexing) (rn : Reg) (rd : Reg) (off : BitVec 8) (s : State) : Result :=
  whenPassed c s (allowing (halfImmOk ix rn rd) .halfwordOperands
    (transferLoadHalf (BitVec.setWidth 32) ix rn rd (offset8 off) s))

/-- LDRSB, register offset (46_halfword_signed_transfer.md R327). -/
def execLdrsbReg (c : Cond) (ix : Indexing) (rn : Reg) (rd : Reg) (rm : Reg) (s : State) : Result :=
  whenPassed c s (allowing (halfRegOk ix rn rd rm) .halfwordOperands
    (transferLoadSignedByte ix rn rd (s.readReg rm) s))

/-- LDRSB, immediate offset (46_halfword_signed_transfer.md R327). -/
def execLdrsbImm (c : Cond) (ix : Indexing) (rn : Reg) (rd : Reg) (off : BitVec 8) (s : State) : Result :=
  whenPassed c s (allowing (halfImmOk ix rn rd) .halfwordOperands
    (transferLoadSignedByte ix rn rd (offset8 off) s))

/-- LDRSH, register offset (46_halfword_signed_transfer.md R328). -/
def execLdrshReg (c : Cond) (ix : Indexing) (rn : Reg) (rd : Reg) (rm : Reg) (s : State) : Result :=
  whenPassed c s (allowing (halfRegOk ix rn rd rm) .halfwordOperands
    (transferLoadHalf (BitVec.signExtend 32) ix rn rd (s.readReg rm) s))

/-- LDRSH, immediate offset (46_halfword_signed_transfer.md R328). -/
def execLdrshImm (c : Cond) (ix : Indexing) (rn : Reg) (rd : Reg) (off : BitVec 8) (s : State) : Result :=
  whenPassed c s (allowing (halfImmOk ix rn rd) .halfwordOperands
    (transferLoadHalf (BitVec.signExtend 32) ix rn rd (offset8 off) s))

end Sys2Proof.Machine
end

