-- ==== Sys2Proof/Machine/Multiply.lean ====
section
/-! DEFINITION. The six multiplies (44_multiply.md R270 to R279). -/

namespace Sys2Proof.Machine

/-- The effect of a 32-bit product: `Rd`, and with S the flags, C from one draw (44_multiply.md R272). -/
def writeMul (sf : Bool) (rd : Reg) (result : Word) (s : State) : Result :=
  if sf then
    advance ((s.drawn.withFlags (mulFlags result (s.draw.getLsbD 0) s.cpsr.flags)).setReg rd result)
  else advance (s.setReg rd result)

/-- The effect of a 64-bit product: `RdLo`, `RdHi`, and with S the flags, C and V from two draws (44_multiply.md R272). -/
def writeMulLong (sf : Bool) (rdHi rdLo : Reg) (p : BitVec 64) (s : State) : Result :=
  let t :=
    if sf then
      s.drawn.drawn.withFlags (mulLongFlags p (s.draw.getLsbD 0) (s.drawn.draw.getLsbD 0))
    else s
  advance ((t.setReg rdLo (p.extractLsb' 0 32)).setReg rdHi (p.extractLsb' 32 32))

/-- The exact unsigned product of two registers and an addend, modulo 2^64 (44_multiply.md R275, R276). -/
def unsignedLong (a b : Word) (acc : Nat) : BitVec 64 := BitVec.ofNat 64 (a.toNat * b.toNat + acc)

/-- The exact signed product of two registers and an addend, modulo 2^64 (44_multiply.md R277, R278). -/
def signedLong (a b : Word) (acc : Int) : BitVec 64 := BitVec.ofInt 64 (a.toInt * b.toInt + acc)

/-- `x[RdHi] :: x[RdLo]` (44_multiply.md R276, R278). -/
def longPair (rdHi rdLo : Reg) (s : State) : BitVec 64 := s.readReg rdHi ++ s.readReg rdLo

/-- MUL (44_multiply.md R273). -/
def execMul (c : Cond) (sf : Bool) (rd : Reg) (rs : Reg) (rm : Reg) (s : State) : Result :=
  whenPassed c s (allowing (mulOk rd rs rm) .multiplyOperands
    (writeMul sf rd (s.readReg rm * s.readReg rs) s))

/-- MLA (44_multiply.md R274). -/
def execMla (c : Cond) (sf : Bool) (rd : Reg) (rn : Reg) (rs : Reg) (rm : Reg) (s : State) : Result :=
  whenPassed c s (allowing (mlaOk rd rn rs rm) .multiplyOperands
    (writeMul sf rd (s.readReg rm * s.readReg rs + s.readReg rn) s))

/-- UMULL (44_multiply.md R275). -/
def execUmull (c : Cond) (sf : Bool) (rdHi : Reg) (rdLo : Reg) (rs : Reg) (rm : Reg) (s : State) : Result :=
  whenPassed c s (allowing (mulLongOk rdHi rdLo rs rm) .multiplyOperands
    (writeMulLong sf rdHi rdLo (unsignedLong (s.readReg rm) (s.readReg rs) 0) s))

/-- UMLAL (44_multiply.md R276). -/
def execUmlal (c : Cond) (sf : Bool) (rdHi : Reg) (rdLo : Reg) (rs : Reg) (rm : Reg) (s : State) : Result :=
  whenPassed c s (allowing (mulLongOk rdHi rdLo rs rm) .multiplyOperands
    (writeMulLong sf rdHi rdLo
      (unsignedLong (s.readReg rm) (s.readReg rs) (longPair rdHi rdLo s).toNat) s))

/-- SMULL (44_multiply.md R277). -/
def execSmull (c : Cond) (sf : Bool) (rdHi : Reg) (rdLo : Reg) (rs : Reg) (rm : Reg) (s : State) : Result :=
  whenPassed c s (allowing (mulLongOk rdHi rdLo rs rm) .multiplyOperands
    (writeMulLong sf rdHi rdLo (signedLong (s.readReg rm) (s.readReg rs) 0) s))

/-- SMLAL (44_multiply.md R278). -/
def execSmlal (c : Cond) (sf : Bool) (rdHi : Reg) (rdLo : Reg) (rs : Reg) (rm : Reg) (s : State) : Result :=
  whenPassed c s (allowing (mulLongOk rdHi rdLo rs rm) .multiplyOperands
    (writeMulLong sf rdHi rdLo
      (signedLong (s.readReg rm) (s.readReg rs) (longPair rdHi rdLo s).toInt) s))

end Sys2Proof.Machine
end

