-- ==== Sys2Proof/Machine/PsrTransfer.lean ====
section
/-! DEFINITION. PSR transfer: MRS and MSR (43_psr_transfer.md R250 to R256). -/

namespace Sys2Proof.Machine

/-- MRS: the fields of the PSR and a free value in each reserved bit (43_psr_transfer.md R251; 10_state.md R47). -/
def execMrs (c : Cond) (spsr : Bool) (rd : Reg) (s : State) : Result :=
  whenPassed c s (allowing (!isPc rd) .r15Operand
    (if spsr then
      match s.spsrNow with
      | none => .refused .noSpsr
      | some p => advance (s.drawn.setReg rd (psrWord p.flags p.i p.f p.m s.draw))
    else
      advance (s.drawn.setReg rd
        (psrWord s.cpsr.flags s.cpsr.i s.cpsr.f s.cpsr.mode.bits s.draw))))

/-- The flags after an MSR: those of the operand when the mask has f (43_psr_transfer.md R254). -/
def msrFlags (mask : BitVec 4) (operand : Word) (old : Flags) : Flags :=
  if mask.getLsbD 3 then Flags.ofWord operand else old

/-- MSR to the CPSR: flags by f; control bits by c, in a privileged mode only (43_psr_transfer.md R254, R255;
10_state.md R45, R46). -/
def msrCpsr (mask : BitVec 4) (operand : Word) (s : State) : Result :=
  let fl := msrFlags mask operand s.cpsr.flags
  if mask.getLsbD 0 && s.privileged then
    match Mode.ofBits (operand.extractLsb' 0 5) with
    | none => .refused .badMode
    | some m =>
      advance (s.withCpsr { flags := fl, i := operand.getLsbD 7, f := operand.getLsbD 6, mode := m })
  else advance (s.withFlags fl)

/-- MSR to the SPSR of the current mode; its mode bits are stored as written (43_psr_transfer.md R254). -/
def msrSpsr (mask : BitVec 4) (operand : Word) (s : State) : Result :=
  match s.spsrNow with
  | none => .refused .noSpsr
  | some p =>
    let fl := msrFlags mask operand p.flags
    let q : Spsr :=
      if mask.getLsbD 0 then
        { flags := fl, i := operand.getLsbD 7, f := operand.getLsbD 6, m := operand.extractLsb' 0 5 }
      else { p with flags := fl }
    advance (s.withSpsr (s.spsr.set s.cpsr.mode q))

/-- Both forms of MSR (43_psr_transfer.md R254). -/
def msr (spsr : Bool) (mask : BitVec 4) (operand : Word) (s : State) : Result :=
  if spsr then msrSpsr mask operand s else msrCpsr mask operand s

/-- MSR, register (43_psr_transfer.md R252). -/
def execMsrReg (c : Cond) (spsr : Bool) (mask : BitVec 4) (rm : Reg) (s : State) : Result :=
  whenPassed c s (allowing (!isPc rm) .r15Operand (msr spsr mask (s.readReg rm) s))

/-- MSR, immediate (43_psr_transfer.md R253). -/
def execMsrImm (c : Cond) (spsr : Bool) (mask : BitVec 4) (op : RotatedImm) (s : State) : Result :=
  whenPassed c s (msr spsr mask (rotatedValue op) s)

end Sys2Proof.Machine
end

