-- ==== Sys2Proof/Machine/SoftwareInterrupt.lean ====
section
/-! DEFINITION. SWI and the two instruction memory barriers, which are SWIs with a reserved comment
(48_swap_swi_imb.md R375 to R383). -/

namespace Sys2Proof.Machine

/-- SWI: the processor ignores the comment (48_swap_swi_imb.md R375). -/
def execSwi (c : Cond) (_comment : BitVec 24) (s : State) : Result := whenPassed c s (softwareInterrupt s)

/-- IMB: the coherence set is emptied, then the SWI entry (48_swap_swi_imb.md R380, R382). -/
def execImb (c : Cond) (s : State) : Result := whenPassed c s (softwareInterrupt s.barrier)

/-- IMBRange: the addresses of the range R0 to R1 leave the coherence set, then the SWI entry (48_swap_swi_imb.md R381,
R382). -/
def execImbRange (c : Cond) (s : State) : Result :=
  whenPassed c s (softwareInterrupt
    (s.barrierOver { first := s.readReg 0#4, last := s.readReg 1#4 }))

end Sys2Proof.Machine
end

