-- ==== Sys2Proof/Machine/Swap.lean ====
section
/-! DEFINITION. Single data swap: SWP and SWPB (48_swap_swi_imb.md R370 to R372). The read and the write are one step:
nothing falls between them (R371, D23). -/

namespace Sys2Proof.Machine

/-- The word swap (48_swap_swi_imb.md R371). -/
def swapWord (rn rd rm : Reg) (s : State) : Result :=
  let a := s.readReg rn
  if misalignedWord a && s.cp15.control.a then alignmentAbort a s
  else
    (loadWord .lockedRead s.privileged a s).run a fun data s' =>
      (storeWord s.privileged a (s.readReg rm) s').run a fun _ s'' =>
        advance (s''.setReg rd (rotateLoaded a data))

/-- The byte swap (48_swap_swi_imb.md R371). -/
def swapByte (rn rd rm : Reg) (s : State) : Result :=
  let a := s.readReg rn
  (loadByte .lockedRead s.privileged a s).run a fun data s' =>
    (storeByte s.privileged a ((s.readReg rm).extractLsb' 0 8) s').run a fun _ s'' =>
      advance (s''.setReg rd (data.setWidth 32))

/-- SWP (48_swap_swi_imb.md R370, R371). -/
def execSwp (c : Cond) (rn rd rm : Reg) (s : State) : Result :=
  whenPassed c s (allowing (swapOk rn rd rm) .swapOperands (swapWord rn rd rm s))

/-- SWPB (48_swap_swi_imb.md R370, R371). -/
def execSwpb (c : Cond) (rn rd rm : Reg) (s : State) : Result :=
  whenPassed c s (allowing (swapOk rn rd rm) .swapOperands (swapByte rn rd rm s))

end Sys2Proof.Machine
end

