-- ==== Sys2Proof/Machine/Dispatch.lean ====
section
/-! DEFINITION. The dispatch: one arm for each constructor of `Instr`. -/

namespace Sys2Proof.Machine

def exec (i : Instr) (s : State) : Host.Outcome State Fault Refusal :=
  match i with
  | .mul c sf rd rs rm => Sys2Proof.Machine.execMul c sf rd rs rm s
  | .mla c sf rd rn rs rm => Sys2Proof.Machine.execMla c sf rd rn rs rm s
  | .umull c sf rdHi rdLo rs rm => Sys2Proof.Machine.execUmull c sf rdHi rdLo rs rm s
  | .umlal c sf rdHi rdLo rs rm => Sys2Proof.Machine.execUmlal c sf rdHi rdLo rs rm s
  | .smull c sf rdHi rdLo rs rm => Sys2Proof.Machine.execSmull c sf rdHi rdLo rs rm s
  | .smlal c sf rdHi rdLo rs rm => Sys2Proof.Machine.execSmlal c sf rdHi rdLo rs rm s
  | .swp c rn rd rm => Sys2Proof.Machine.execSwp c rn rd rm s
  | .swpb c rn rd rm => Sys2Proof.Machine.execSwpb c rn rd rm s
  | .strhReg c ix rn rd rm => Sys2Proof.Machine.execStrhReg c ix rn rd rm s
  | .strhImm c ix rn rd off => Sys2Proof.Machine.execStrhImm c ix rn rd off s
  | .ldrhReg c ix rn rd rm => Sys2Proof.Machine.execLdrhReg c ix rn rd rm s
  | .ldrhImm c ix rn rd off => Sys2Proof.Machine.execLdrhImm c ix rn rd off s
  | .ldrsbReg c ix rn rd rm => Sys2Proof.Machine.execLdrsbReg c ix rn rd rm s
  | .ldrsbImm c ix rn rd off => Sys2Proof.Machine.execLdrsbImm c ix rn rd off s
  | .ldrshReg c ix rn rd rm => Sys2Proof.Machine.execLdrshReg c ix rn rd rm s
  | .ldrshImm c ix rn rd off => Sys2Proof.Machine.execLdrshImm c ix rn rd off s
  | .mrs c spsr rd => Sys2Proof.Machine.execMrs c spsr rd s
  | .msrReg c spsr mask rm => Sys2Proof.Machine.execMsrReg c spsr mask rm s
  | .msrImm c spsr mask op => Sys2Proof.Machine.execMsrImm c spsr mask op s
  | .andImm c sf rn rd op => Sys2Proof.Machine.execAndImm c sf rn rd op s
  | .andReg c sf rn rd op => Sys2Proof.Machine.execAndReg c sf rn rd op s
  | .andRsr c sf rn rd op => Sys2Proof.Machine.execAndRsr c sf rn rd op s
  | .eorImm c sf rn rd op => Sys2Proof.Machine.execEorImm c sf rn rd op s
  | .eorReg c sf rn rd op => Sys2Proof.Machine.execEorReg c sf rn rd op s
  | .eorRsr c sf rn rd op => Sys2Proof.Machine.execEorRsr c sf rn rd op s
  | .subImm c sf rn rd op => Sys2Proof.Machine.execSubImm c sf rn rd op s
  | .subReg c sf rn rd op => Sys2Proof.Machine.execSubReg c sf rn rd op s
  | .subRsr c sf rn rd op => Sys2Proof.Machine.execSubRsr c sf rn rd op s
  | .rsbImm c sf rn rd op => Sys2Proof.Machine.execRsbImm c sf rn rd op s
  | .rsbReg c sf rn rd op => Sys2Proof.Machine.execRsbReg c sf rn rd op s
  | .rsbRsr c sf rn rd op => Sys2Proof.Machine.execRsbRsr c sf rn rd op s
  | .addImm c sf rn rd op => Sys2Proof.Machine.execAddImm c sf rn rd op s
  | .addReg c sf rn rd op => Sys2Proof.Machine.execAddReg c sf rn rd op s
  | .addRsr c sf rn rd op => Sys2Proof.Machine.execAddRsr c sf rn rd op s
  | .adcImm c sf rn rd op => Sys2Proof.Machine.execAdcImm c sf rn rd op s
  | .adcReg c sf rn rd op => Sys2Proof.Machine.execAdcReg c sf rn rd op s
  | .adcRsr c sf rn rd op => Sys2Proof.Machine.execAdcRsr c sf rn rd op s
  | .sbcImm c sf rn rd op => Sys2Proof.Machine.execSbcImm c sf rn rd op s
  | .sbcReg c sf rn rd op => Sys2Proof.Machine.execSbcReg c sf rn rd op s
  | .sbcRsr c sf rn rd op => Sys2Proof.Machine.execSbcRsr c sf rn rd op s
  | .rscImm c sf rn rd op => Sys2Proof.Machine.execRscImm c sf rn rd op s
  | .rscReg c sf rn rd op => Sys2Proof.Machine.execRscReg c sf rn rd op s
  | .rscRsr c sf rn rd op => Sys2Proof.Machine.execRscRsr c sf rn rd op s
  | .tstImm c rn op => Sys2Proof.Machine.execTstImm c rn op s
  | .tstReg c rn op => Sys2Proof.Machine.execTstReg c rn op s
  | .tstRsr c rn op => Sys2Proof.Machine.execTstRsr c rn op s
  | .teqImm c rn op => Sys2Proof.Machine.execTeqImm c rn op s
  | .teqReg c rn op => Sys2Proof.Machine.execTeqReg c rn op s
  | .teqRsr c rn op => Sys2Proof.Machine.execTeqRsr c rn op s
  | .cmpImm c rn op => Sys2Proof.Machine.execCmpImm c rn op s
  | .cmpReg c rn op => Sys2Proof.Machine.execCmpReg c rn op s
  | .cmpRsr c rn op => Sys2Proof.Machine.execCmpRsr c rn op s
  | .cmnImm c rn op => Sys2Proof.Machine.execCmnImm c rn op s
  | .cmnReg c rn op => Sys2Proof.Machine.execCmnReg c rn op s
  | .cmnRsr c rn op => Sys2Proof.Machine.execCmnRsr c rn op s
  | .orrImm c sf rn rd op => Sys2Proof.Machine.execOrrImm c sf rn rd op s
  | .orrReg c sf rn rd op => Sys2Proof.Machine.execOrrReg c sf rn rd op s
  | .orrRsr c sf rn rd op => Sys2Proof.Machine.execOrrRsr c sf rn rd op s
  | .movImm c sf rd op => Sys2Proof.Machine.execMovImm c sf rd op s
  | .movReg c sf rd op => Sys2Proof.Machine.execMovReg c sf rd op s
  | .movRsr c sf rd op => Sys2Proof.Machine.execMovRsr c sf rd op s
  | .bicImm c sf rn rd op => Sys2Proof.Machine.execBicImm c sf rn rd op s
  | .bicReg c sf rn rd op => Sys2Proof.Machine.execBicReg c sf rn rd op s
  | .bicRsr c sf rn rd op => Sys2Proof.Machine.execBicRsr c sf rn rd op s
  | .mvnImm c sf rd op => Sys2Proof.Machine.execMvnImm c sf rd op s
  | .mvnReg c sf rd op => Sys2Proof.Machine.execMvnReg c sf rd op s
  | .mvnRsr c sf rd op => Sys2Proof.Machine.execMvnRsr c sf rd op s
  | .undefined c hi lo => Sys2Proof.Machine.execUndefined c hi lo s
  | .ldrtImm c u rn rd off => Sys2Proof.Machine.execLdrtImm c u rn rd off s
  | .ldrtReg c u rn rd op => Sys2Proof.Machine.execLdrtReg c u rn rd op s
  | .strtImm c u rn rd off => Sys2Proof.Machine.execStrtImm c u rn rd off s
  | .strtReg c u rn rd op => Sys2Proof.Machine.execStrtReg c u rn rd op s
  | .ldrbtImm c u rn rd off => Sys2Proof.Machine.execLdrbtImm c u rn rd off s
  | .ldrbtReg c u rn rd op => Sys2Proof.Machine.execLdrbtReg c u rn rd op s
  | .strbtImm c u rn rd off => Sys2Proof.Machine.execStrbtImm c u rn rd off s
  | .strbtReg c u rn rd op => Sys2Proof.Machine.execStrbtReg c u rn rd op s
  | .ldrImm c ix rn rd off => Sys2Proof.Machine.execLdrImm c ix rn rd off s
  | .ldrReg c ix rn rd op => Sys2Proof.Machine.execLdrReg c ix rn rd op s
  | .strImm c ix rn rd off => Sys2Proof.Machine.execStrImm c ix rn rd off s
  | .strReg c ix rn rd op => Sys2Proof.Machine.execStrReg c ix rn rd op s
  | .ldrbImm c ix rn rd off => Sys2Proof.Machine.execLdrbImm c ix rn rd off s
  | .ldrbReg c ix rn rd op => Sys2Proof.Machine.execLdrbReg c ix rn rd op s
  | .strbImm c ix rn rd off => Sys2Proof.Machine.execStrbImm c ix rn rd off s
  | .strbReg c ix rn rd op => Sys2Proof.Machine.execStrbReg c ix rn rd op s
  | .ldm c bm rn list => Sys2Proof.Machine.execLdm c bm rn list s
  | .stm c bm rn list => Sys2Proof.Machine.execStm c bm rn list s
  | .b c off => Sys2Proof.Machine.execB c off s
  | .bl c off => Sys2Proof.Machine.execBl c off s
  | .ldc c p u n w rn crd cp off => Sys2Proof.Machine.execLdc c p u n w rn crd cp off s
  | .stc c p u n w rn crd cp off => Sys2Proof.Machine.execStc c p u n w rn crd cp off s
  | .imb c => Sys2Proof.Machine.execImb c s
  | .imbRange c => Sys2Proof.Machine.execImbRange c s
  | .swi c comment => Sys2Proof.Machine.execSwi c comment s
  | .cdp c op1 crn crd cp op2 crm => Sys2Proof.Machine.execCdp c op1 crn crd cp op2 crm s
  | .mrc c op1 crn rd op2 crm => Sys2Proof.Machine.execMrc c op1 crn rd op2 crm s
  | .mcr c op1 crn rd op2 crm => Sys2Proof.Machine.execMcr c op1 crn rd op2 crm s
  | .mrcOther c op1 crn rd cp op2 crm => Sys2Proof.Machine.execMrcOther c op1 crn rd cp op2 crm s
  | .mcrOther c op1 crn rd cp op2 crm => Sys2Proof.Machine.execMcrOther c op1 crn rd cp op2 crm s

end Sys2Proof.Machine
end

