-- ==== Sys2Proof/Decode.lean ====
section
/-! DEFINITION. Decoding, total on any word, and the encoder, both from the encoding tables of 30_encoding.md and the
rows of spec/opcode_table.json. Reserved encodings are refused by name. -/

namespace Sys2Proof

/-- The condition a field value stands for; none for 0b1111 (30_encoding.md R160, 40_condition_field.md R181). -/
def Cond.ofBits (b : BitVec 4) : Option Cond :=
  match b.toNat with
  | 0 => some .eq | 1 => some .ne | 2 => some .cs | 3 => some .cc | 4 => some .mi | 5 => some .pl
  | 6 => some .vs | 7 => some .vc | 8 => some .hi | 9 => some .ls | 10 => some .ge | 11 => some .lt
  | 12 => some .gt | 13 => some .le | 14 => some .al | _ => none

/-- The field value of a condition (40_condition_field.md R181). -/
def Cond.bits : Cond → BitVec 4
  | .eq => 0#4 | .ne => 1#4 | .cs => 2#4 | .cc => 3#4 | .mi => 4#4 | .pl => 5#4 | .vs => 6#4 | .vc => 7#4
  | .hi => 8#4 | .ls => 9#4 | .ge => 10#4 | .lt => 11#4 | .gt => 12#4 | .le => 13#4 | .al => 14#4

/-- The shift a type field stands for (30_encoding.md R145). -/
def ShiftType.ofBits (b : BitVec 2) : ShiftType :=
  match b.toNat with
  | 0 => .lsl | 1 => .lsr | 2 => .asr | _ => .ror

/-- The field value of a shift type (30_encoding.md R145). -/
def ShiftType.bits : ShiftType → BitVec 2
  | .lsl => 0#2 | .lsr => 1#2 | .asr => 2#2 | .ror => 3#2

/-- `rotate` in bits 11:8 and `imm8` in bits 7:0 (30_encoding.md R150). -/
def rotatedImm (w : Word) : RotatedImm := { rotate := w.extractLsb' 8 4, imm8 := w.extractLsb' 0 8 }

/-- `shift_imm` in bits 11:7, `type` in 6:5, `Rm` in 3:0 (30_encoding.md R151). -/
def shiftedReg (w : Word) : ShiftedReg :=
  { amount := w.extractLsb' 7 5, type := .ofBits (w.extractLsb' 5 2), rm := w.extractLsb' 0 4 }

/-- `Rs` in bits 11:8, `type` in 6:5, `Rm` in 3:0 (30_encoding.md R151). -/
def regShiftedReg (w : Word) : RegShiftedReg :=
  { rs := w.extractLsb' 8 4, type := .ofBits (w.extractLsb' 5 2), rm := w.extractLsb' 0 4 }

/-- P in bit 24, U in 23, W in 21 (30_encoding.md R146). -/
def indexing (w : Word) : Indexing := { p := w.getLsbD 24, u := w.getLsbD 23, w := w.getLsbD 21 }

/-- P in bit 24, U in 23, S in 22, W in 21 (30_encoding.md R146). -/
def blockMode (w : Word) : BlockMode :=
  { p := w.getLsbD 24, u := w.getLsbD 23, s := w.getLsbD 22, w := w.getLsbD 21 }

/-- The halfword offset: high nibble in bits 11:8, low nibble in 3:0 (30_encoding.md R153). -/
def splitOffset (w : Word) : BitVec 8 := w.extractLsb' 8 4 ++ w.extractLsb' 0 4

/-- One row of the opcode table: a word belongs to it when its bits under `mask` are `pattern` (30_encoding.md R177). -/
structure Row where
  mask    : Word
  pattern : Word
  build   : Cond → Word → Instr

/-- The word belongs to the row (30_encoding.md R177). -/
def Row.matches (r : Row) (w : Word) : Bool := w &&& r.mask == r.pattern

/-- Multiply and long multiply (44_multiply.md), in the table's order. -/
def rowsMultiply : List Row :=
  [⟨0x0FE0F0F0#32, 0x00000090#32, fun c w => .mul c (w.getLsbD 20) (w.extractLsb' 16 4) (w.extractLsb' 8 4) (w.extractLsb' 0 4)⟩,
   ⟨0x0FE000F0#32, 0x00200090#32, fun c w => .mla c (w.getLsbD 20) (w.extractLsb' 16 4) (w.extractLsb' 12 4) (w.extractLsb' 8 4) (w.extractLsb' 0 4)⟩,
   ⟨0x0FE000F0#32, 0x00800090#32, fun c w => .umull c (w.getLsbD 20) (w.extractLsb' 16 4) (w.extractLsb' 12 4) (w.extractLsb' 8 4) (w.extractLsb' 0 4)⟩,
   ⟨0x0FE000F0#32, 0x00A00090#32, fun c w => .umlal c (w.getLsbD 20) (w.extractLsb' 16 4) (w.extractLsb' 12 4) (w.extractLsb' 8 4) (w.extractLsb' 0 4)⟩,
   ⟨0x0FE000F0#32, 0x00C00090#32, fun c w => .smull c (w.getLsbD 20) (w.extractLsb' 16 4) (w.extractLsb' 12 4) (w.extractLsb' 8 4) (w.extractLsb' 0 4)⟩,
   ⟨0x0FE000F0#32, 0x00E00090#32, fun c w => .smlal c (w.getLsbD 20) (w.extractLsb' 16 4) (w.extractLsb' 12 4) (w.extractLsb' 8 4) (w.extractLsb' 0 4)⟩]

/-- Swap (48_swap_swi_imb.md), in the table's order. -/
def rowsSwap : List Row :=
  [⟨0x0FF00FF0#32, 0x01000090#32, fun c w => .swp c (w.extractLsb' 16 4) (w.extractLsb' 12 4) (w.extractLsb' 0 4)⟩,
   ⟨0x0FF00FF0#32, 0x01400090#32, fun c w => .swpb c (w.extractLsb' 16 4) (w.extractLsb' 12 4) (w.extractLsb' 0 4)⟩]

/-- Halfword and signed transfer (46_halfword_signed_transfer.md), in the table's order. -/
def rowsHalfword : List Row :=
  [⟨0x0E500FF0#32, 0x000000B0#32, fun c w => .strhReg c (indexing w) (w.extractLsb' 16 4) (w.extractLsb' 12 4) (w.extractLsb' 0 4)⟩,
   ⟨0x0E5000F0#32, 0x004000B0#32, fun c w => .strhImm c (indexing w) (w.extractLsb' 16 4) (w.extractLsb' 12 4) (splitOffset w)⟩,
   ⟨0x0E500FF0#32, 0x001000B0#32, fun c w => .ldrhReg c (indexing w) (w.extractLsb' 16 4) (w.extractLsb' 12 4) (w.extractLsb' 0 4)⟩,
   ⟨0x0E5000F0#32, 0x005000B0#32, fun c w => .ldrhImm c (indexing w) (w.extractLsb' 16 4) (w.extractLsb' 12 4) (splitOffset w)⟩,
   ⟨0x0E500FF0#32, 0x001000D0#32, fun c w => .ldrsbReg c (indexing w) (w.extractLsb' 16 4) (w.extractLsb' 12 4) (w.extractLsb' 0 4)⟩,
   ⟨0x0E5000F0#32, 0x005000D0#32, fun c w => .ldrsbImm c (indexing w) (w.extractLsb' 16 4) (w.extractLsb' 12 4) (splitOffset w)⟩,
   ⟨0x0E500FF0#32, 0x001000F0#32, fun c w => .ldrshReg c (indexing w) (w.extractLsb' 16 4) (w.extractLsb' 12 4) (w.extractLsb' 0 4)⟩,
   ⟨0x0E5000F0#32, 0x005000F0#32, fun c w => .ldrshImm c (indexing w) (w.extractLsb' 16 4) (w.extractLsb' 12 4) (splitOffset w)⟩]

/-- PSR transfer (43_psr_transfer.md), in the table's order. -/
def rowsPsr : List Row :=
  [⟨0x0FBF0FFF#32, 0x010F0000#32, fun c w => .mrs c (w.getLsbD 22) (w.extractLsb' 12 4)⟩,
   ⟨0x0FB0FFF0#32, 0x0120F000#32, fun c w => .msrReg c (w.getLsbD 22) (w.extractLsb' 16 4) (w.extractLsb' 0 4)⟩,
   ⟨0x0FB0F000#32, 0x0320F000#32, fun c w => .msrImm c (w.getLsbD 22) (w.extractLsb' 16 4) (rotatedImm w)⟩]

/-- Data processing (42_data_processing.md), in the table's order. -/
def rowsDataProcessing1 : List Row :=
  [⟨0x0FE00000#32, 0x02000000#32, fun c w => .andImm c (w.getLsbD 20) (w.extractLsb' 16 4) (w.extractLsb' 12 4) (rotatedImm w)⟩,
   ⟨0x0FE00010#32, 0x00000000#32, fun c w => .andReg c (w.getLsbD 20) (w.extractLsb' 16 4) (w.extractLsb' 12 4) (shiftedReg w)⟩,
   ⟨0x0FE00090#32, 0x00000010#32, fun c w => .andRsr c (w.getLsbD 20) (w.extractLsb' 16 4) (w.extractLsb' 12 4) (regShiftedReg w)⟩,
   ⟨0x0FE00000#32, 0x02200000#32, fun c w => .eorImm c (w.getLsbD 20) (w.extractLsb' 16 4) (w.extractLsb' 12 4) (rotatedImm w)⟩,
   ⟨0x0FE00010#32, 0x00200000#32, fun c w => .eorReg c (w.getLsbD 20) (w.extractLsb' 16 4) (w.extractLsb' 12 4) (shiftedReg w)⟩,
   ⟨0x0FE00090#32, 0x00200010#32, fun c w => .eorRsr c (w.getLsbD 20) (w.extractLsb' 16 4) (w.extractLsb' 12 4) (regShiftedReg w)⟩,
   ⟨0x0FE00000#32, 0x02400000#32, fun c w => .subImm c (w.getLsbD 20) (w.extractLsb' 16 4) (w.extractLsb' 12 4) (rotatedImm w)⟩,
   ⟨0x0FE00010#32, 0x00400000#32, fun c w => .subReg c (w.getLsbD 20) (w.extractLsb' 16 4) (w.extractLsb' 12 4) (shiftedReg w)⟩,
   ⟨0x0FE00090#32, 0x00400010#32, fun c w => .subRsr c (w.getLsbD 20) (w.extractLsb' 16 4) (w.extractLsb' 12 4) (regShiftedReg w)⟩,
   ⟨0x0FE00000#32, 0x02600000#32, fun c w => .rsbImm c (w.getLsbD 20) (w.extractLsb' 16 4) (w.extractLsb' 12 4) (rotatedImm w)⟩,
   ⟨0x0FE00010#32, 0x00600000#32, fun c w => .rsbReg c (w.getLsbD 20) (w.extractLsb' 16 4) (w.extractLsb' 12 4) (shiftedReg w)⟩,
   ⟨0x0FE00090#32, 0x00600010#32, fun c w => .rsbRsr c (w.getLsbD 20) (w.extractLsb' 16 4) (w.extractLsb' 12 4) (regShiftedReg w)⟩,
   ⟨0x0FE00000#32, 0x02800000#32, fun c w => .addImm c (w.getLsbD 20) (w.extractLsb' 16 4) (w.extractLsb' 12 4) (rotatedImm w)⟩,
   ⟨0x0FE00010#32, 0x00800000#32, fun c w => .addReg c (w.getLsbD 20) (w.extractLsb' 16 4) (w.extractLsb' 12 4) (shiftedReg w)⟩,
   ⟨0x0FE00090#32, 0x00800010#32, fun c w => .addRsr c (w.getLsbD 20) (w.extractLsb' 16 4) (w.extractLsb' 12 4) (regShiftedReg w)⟩,
   ⟨0x0FE00000#32, 0x02A00000#32, fun c w => .adcImm c (w.getLsbD 20) (w.extractLsb' 16 4) (w.extractLsb' 12 4) (rotatedImm w)⟩]

/-- Data processing (42_data_processing.md), in the table's order. -/
def rowsDataProcessing2 : List Row :=
  [⟨0x0FE00010#32, 0x00A00000#32, fun c w => .adcReg c (w.getLsbD 20) (w.extractLsb' 16 4) (w.extractLsb' 12 4) (shiftedReg w)⟩,
   ⟨0x0FE00090#32, 0x00A00010#32, fun c w => .adcRsr c (w.getLsbD 20) (w.extractLsb' 16 4) (w.extractLsb' 12 4) (regShiftedReg w)⟩,
   ⟨0x0FE00000#32, 0x02C00000#32, fun c w => .sbcImm c (w.getLsbD 20) (w.extractLsb' 16 4) (w.extractLsb' 12 4) (rotatedImm w)⟩,
   ⟨0x0FE00010#32, 0x00C00000#32, fun c w => .sbcReg c (w.getLsbD 20) (w.extractLsb' 16 4) (w.extractLsb' 12 4) (shiftedReg w)⟩,
   ⟨0x0FE00090#32, 0x00C00010#32, fun c w => .sbcRsr c (w.getLsbD 20) (w.extractLsb' 16 4) (w.extractLsb' 12 4) (regShiftedReg w)⟩,
   ⟨0x0FE00000#32, 0x02E00000#32, fun c w => .rscImm c (w.getLsbD 20) (w.extractLsb' 16 4) (w.extractLsb' 12 4) (rotatedImm w)⟩,
   ⟨0x0FE00010#32, 0x00E00000#32, fun c w => .rscReg c (w.getLsbD 20) (w.extractLsb' 16 4) (w.extractLsb' 12 4) (shiftedReg w)⟩,
   ⟨0x0FE00090#32, 0x00E00010#32, fun c w => .rscRsr c (w.getLsbD 20) (w.extractLsb' 16 4) (w.extractLsb' 12 4) (regShiftedReg w)⟩,
   ⟨0x0FF0F000#32, 0x03100000#32, fun c w => .tstImm c (w.extractLsb' 16 4) (rotatedImm w)⟩,
   ⟨0x0FF0F010#32, 0x01100000#32, fun c w => .tstReg c (w.extractLsb' 16 4) (shiftedReg w)⟩,
   ⟨0x0FF0F090#32, 0x01100010#32, fun c w => .tstRsr c (w.extractLsb' 16 4) (regShiftedReg w)⟩,
   ⟨0x0FF0F000#32, 0x03300000#32, fun c w => .teqImm c (w.extractLsb' 16 4) (rotatedImm w)⟩,
   ⟨0x0FF0F010#32, 0x01300000#32, fun c w => .teqReg c (w.extractLsb' 16 4) (shiftedReg w)⟩,
   ⟨0x0FF0F090#32, 0x01300010#32, fun c w => .teqRsr c (w.extractLsb' 16 4) (regShiftedReg w)⟩,
   ⟨0x0FF0F000#32, 0x03500000#32, fun c w => .cmpImm c (w.extractLsb' 16 4) (rotatedImm w)⟩,
   ⟨0x0FF0F010#32, 0x01500000#32, fun c w => .cmpReg c (w.extractLsb' 16 4) (shiftedReg w)⟩]

/-- Data processing (42_data_processing.md), in the table's order. -/
def rowsDataProcessing3 : List Row :=
  [⟨0x0FF0F090#32, 0x01500010#32, fun c w => .cmpRsr c (w.extractLsb' 16 4) (regShiftedReg w)⟩,
   ⟨0x0FF0F000#32, 0x03700000#32, fun c w => .cmnImm c (w.extractLsb' 16 4) (rotatedImm w)⟩,
   ⟨0x0FF0F010#32, 0x01700000#32, fun c w => .cmnReg c (w.extractLsb' 16 4) (shiftedReg w)⟩,
   ⟨0x0FF0F090#32, 0x01700010#32, fun c w => .cmnRsr c (w.extractLsb' 16 4) (regShiftedReg w)⟩,
   ⟨0x0FE00000#32, 0x03800000#32, fun c w => .orrImm c (w.getLsbD 20) (w.extractLsb' 16 4) (w.extractLsb' 12 4) (rotatedImm w)⟩,
   ⟨0x0FE00010#32, 0x01800000#32, fun c w => .orrReg c (w.getLsbD 20) (w.extractLsb' 16 4) (w.extractLsb' 12 4) (shiftedReg w)⟩,
   ⟨0x0FE00090#32, 0x01800010#32, fun c w => .orrRsr c (w.getLsbD 20) (w.extractLsb' 16 4) (w.extractLsb' 12 4) (regShiftedReg w)⟩,
   ⟨0x0FEF0000#32, 0x03A00000#32, fun c w => .movImm c (w.getLsbD 20) (w.extractLsb' 12 4) (rotatedImm w)⟩,
   ⟨0x0FEF0010#32, 0x01A00000#32, fun c w => .movReg c (w.getLsbD 20) (w.extractLsb' 12 4) (shiftedReg w)⟩,
   ⟨0x0FEF0090#32, 0x01A00010#32, fun c w => .movRsr c (w.getLsbD 20) (w.extractLsb' 12 4) (regShiftedReg w)⟩,
   ⟨0x0FE00000#32, 0x03C00000#32, fun c w => .bicImm c (w.getLsbD 20) (w.extractLsb' 16 4) (w.extractLsb' 12 4) (rotatedImm w)⟩,
   ⟨0x0FE00010#32, 0x01C00000#32, fun c w => .bicReg c (w.getLsbD 20) (w.extractLsb' 16 4) (w.extractLsb' 12 4) (shiftedReg w)⟩,
   ⟨0x0FE00090#32, 0x01C00010#32, fun c w => .bicRsr c (w.getLsbD 20) (w.extractLsb' 16 4) (w.extractLsb' 12 4) (regShiftedReg w)⟩,
   ⟨0x0FEF0000#32, 0x03E00000#32, fun c w => .mvnImm c (w.getLsbD 20) (w.extractLsb' 12 4) (rotatedImm w)⟩,
   ⟨0x0FEF0010#32, 0x01E00000#32, fun c w => .mvnReg c (w.getLsbD 20) (w.extractLsb' 12 4) (shiftedReg w)⟩,
   ⟨0x0FEF0090#32, 0x01E00010#32, fun c w => .mvnRsr c (w.getLsbD 20) (w.extractLsb' 12 4) (regShiftedReg w)⟩]

/-- The undefined instruction (49_coprocessor_undefined.md), in the table's order. -/
def rowsUndefined : List Row :=
  [⟨0x0E000010#32, 0x06000010#32, fun c w => .undefined c (w.extractLsb' 5 20) (w.extractLsb' 0 4)⟩]

/-- Single data transfer (45_single_data_transfer.md), in the table's order. -/
def rowsSingle : List Row :=
  [⟨0x0F700000#32, 0x04300000#32, fun c w => .ldrtImm c (w.getLsbD 23) (w.extractLsb' 16 4) (w.extractLsb' 12 4) (w.extractLsb' 0 12)⟩,
   ⟨0x0F700010#32, 0x06300000#32, fun c w => .ldrtReg c (w.getLsbD 23) (w.extractLsb' 16 4) (w.extractLsb' 12 4) (shiftedReg w)⟩,
   ⟨0x0F700000#32, 0x04200000#32, fun c w => .strtImm c (w.getLsbD 23) (w.extractLsb' 16 4) (w.extractLsb' 12 4) (w.extractLsb' 0 12)⟩,
   ⟨0x0F700010#32, 0x06200000#32, fun c w => .strtReg c (w.getLsbD 23) (w.extractLsb' 16 4) (w.extractLsb' 12 4) (shiftedReg w)⟩,
   ⟨0x0F700000#32, 0x04700000#32, fun c w => .ldrbtImm c (w.getLsbD 23) (w.extractLsb' 16 4) (w.extractLsb' 12 4) (w.extractLsb' 0 12)⟩,
   ⟨0x0F700010#32, 0x06700000#32, fun c w => .ldrbtReg c (w.getLsbD 23) (w.extractLsb' 16 4) (w.extractLsb' 12 4) (shiftedReg w)⟩,
   ⟨0x0F700000#32, 0x04600000#32, fun c w => .strbtImm c (w.getLsbD 23) (w.extractLsb' 16 4) (w.extractLsb' 12 4) (w.extractLsb' 0 12)⟩,
   ⟨0x0F700010#32, 0x06600000#32, fun c w => .strbtReg c (w.getLsbD 23) (w.extractLsb' 16 4) (w.extractLsb' 12 4) (shiftedReg w)⟩,
   ⟨0x0E500000#32, 0x04100000#32, fun c w => .ldrImm c (indexing w) (w.extractLsb' 16 4) (w.extractLsb' 12 4) (w.extractLsb' 0 12)⟩,
   ⟨0x0E500010#32, 0x06100000#32, fun c w => .ldrReg c (indexing w) (w.extractLsb' 16 4) (w.extractLsb' 12 4) (shiftedReg w)⟩,
   ⟨0x0E500000#32, 0x04000000#32, fun c w => .strImm c (indexing w) (w.extractLsb' 16 4) (w.extractLsb' 12 4) (w.extractLsb' 0 12)⟩,
   ⟨0x0E500010#32, 0x06000000#32, fun c w => .strReg c (indexing w) (w.extractLsb' 16 4) (w.extractLsb' 12 4) (shiftedReg w)⟩,
   ⟨0x0E500000#32, 0x04500000#32, fun c w => .ldrbImm c (indexing w) (w.extractLsb' 16 4) (w.extractLsb' 12 4) (w.extractLsb' 0 12)⟩,
   ⟨0x0E500010#32, 0x06500000#32, fun c w => .ldrbReg c (indexing w) (w.extractLsb' 16 4) (w.extractLsb' 12 4) (shiftedReg w)⟩,
   ⟨0x0E500000#32, 0x04400000#32, fun c w => .strbImm c (indexing w) (w.extractLsb' 16 4) (w.extractLsb' 12 4) (w.extractLsb' 0 12)⟩,
   ⟨0x0E500010#32, 0x06400000#32, fun c w => .strbReg c (indexing w) (w.extractLsb' 16 4) (w.extractLsb' 12 4) (shiftedReg w)⟩]

/-- Block data transfer (47_block_data_transfer.md), in the table's order. -/
def rowsBlock : List Row :=
  [⟨0x0E100000#32, 0x08100000#32, fun c w => .ldm c (blockMode w) (w.extractLsb' 16 4) (w.extractLsb' 0 16)⟩,
   ⟨0x0E100000#32, 0x08000000#32, fun c w => .stm c (blockMode w) (w.extractLsb' 16 4) (w.extractLsb' 0 16)⟩]

/-- Branch (41_branch.md), in the table's order. -/
def rowsBranch : List Row :=
  [⟨0x0F000000#32, 0x0A000000#32, fun c w => .b c (w.extractLsb' 0 24)⟩,
   ⟨0x0F000000#32, 0x0B000000#32, fun c w => .bl c (w.extractLsb' 0 24)⟩]

/-- Coprocessor data transfer (49_coprocessor_undefined.md), in the table's order. -/
def rowsCoprocTransfer : List Row :=
  [⟨0x0E100000#32, 0x0C100000#32, fun c w => .ldc c (w.getLsbD 24) (w.getLsbD 23) (w.getLsbD 22) (w.getLsbD 21) (w.extractLsb' 16 4) (w.extractLsb' 12 4) (w.extractLsb' 8 4) (w.extractLsb' 0 8)⟩,
   ⟨0x0E100000#32, 0x0C000000#32, fun c w => .stc c (w.getLsbD 24) (w.getLsbD 23) (w.getLsbD 22) (w.getLsbD 21) (w.extractLsb' 16 4) (w.extractLsb' 12 4) (w.extractLsb' 8 4) (w.extractLsb' 0 8)⟩]

/-- IMB, IMBRange, SWI (48_swap_swi_imb.md), in the table's order. -/
def rowsSwi : List Row :=
  [⟨0x0FFFFFFF#32, 0x0FF00000#32, fun c _ => .imb c⟩,
   ⟨0x0FFFFFFF#32, 0x0FF00001#32, fun c _ => .imbRange c⟩,
   ⟨0x0F000000#32, 0x0F000000#32, fun c w => .swi c (w.extractLsb' 0 24)⟩]

/-- Coprocessor operations and register transfers (49_coprocessor_undefined.md), in the table's order. -/
def rowsCoproc : List Row :=
  [⟨0x0F000010#32, 0x0E000000#32, fun c w => .cdp c (w.extractLsb' 20 4) (w.extractLsb' 16 4) (w.extractLsb' 12 4) (w.extractLsb' 8 4) (w.extractLsb' 5 3) (w.extractLsb' 0 4)⟩,
   ⟨0x0F100F10#32, 0x0E100F10#32, fun c w => .mrc c (w.extractLsb' 21 3) (w.extractLsb' 16 4) (w.extractLsb' 12 4) (w.extractLsb' 5 3) (w.extractLsb' 0 4)⟩,
   ⟨0x0F100F10#32, 0x0E000F10#32, fun c w => .mcr c (w.extractLsb' 21 3) (w.extractLsb' 16 4) (w.extractLsb' 12 4) (w.extractLsb' 5 3) (w.extractLsb' 0 4)⟩,
   ⟨0x0F100010#32, 0x0E100010#32, fun c w => .mrcOther c (w.extractLsb' 21 3) (w.extractLsb' 16 4) (w.extractLsb' 12 4) (w.extractLsb' 8 4) (w.extractLsb' 5 3) (w.extractLsb' 0 4)⟩,
   ⟨0x0F100010#32, 0x0E000010#32, fun c w => .mcrOther c (w.extractLsb' 21 3) (w.extractLsb' 16 4) (w.extractLsb' 12 4) (w.extractLsb' 8 4) (w.extractLsb' 5 3) (w.extractLsb' 0 4)⟩]

/-- The 98 rows of spec/opcode_table.json in file order: the first that a word belongs to decides (30_encoding.md R177). -/
def rows : List Row :=
  rowsMultiply ++ rowsSwap ++ rowsHalfword ++ rowsPsr ++ rowsDataProcessing1 ++ rowsDataProcessing2 ++
    rowsDataProcessing3 ++ rowsUndefined ++ rowsSingle ++ rowsBlock ++ rowsBranch ++ rowsCoprocTransfer ++ rowsSwi ++ rowsCoproc

/-- Why a word or a run of bytes is no instruction. -/
inductive DecodeError where
  /-- The condition field is 0b1111 (30_encoding.md R160). -/
  | nvCondition
  /-- A should-be-zero or should-be-one field is violated (30_encoding.md R161). -/
  | shouldBeViolated
  /-- The word is in one of the unallocated spaces (30_encoding.md R162). -/
  | unallocated
  /-- Fewer than four bytes (30_encoding.md R140). -/
  | truncated
  deriving DecidableEq, Repr

/-- The class-000 part of the decode procedure (30_encoding.md R143): does it reach an instruction? -/
def allocated000 (w : Word) : Bool :=
  if w.getLsbD 7 && w.getLsbD 4 then
    if w.extractLsb' 5 2 == 0#2 then
      w.extractLsb' 22 3 == 0#3 || w.extractLsb' 23 2 == 1#2 ||
        (w.extractLsb' 23 2 == 2#2 && w.extractLsb' 20 2 == 0#2)
    else w.getLsbD 20 || w.extractLsb' 5 2 == 1#2
  else if w.extractLsb' 23 2 == 2#2 && !w.getLsbD 20 then w.extractLsb' 4 4 == 0#4
  else true

/-- The decode procedure reaches an instruction, whatever the should-be-zero fields hold (30_encoding.md R143). -/
def allocated (w : Word) : Bool :=
  if w.extractLsb' 25 3 == 0#3 then allocated000 w
  else if w.extractLsb' 25 3 == 1#3 then
    !(w.extractLsb' 23 2 == 2#2 && !w.getLsbD 20) || w.getLsbD 21
  else true

/-- The instruction a word stands for: its condition, then the first row of the table it belongs to (30_encoding.md
R160, R161, R162, R177). -/
def decode (w : Word) : Except DecodeError Instr :=
  match Cond.ofBits (w.extractLsb' 28 4) with
  | none => .error .nvCondition
  | some c =>
    match rows.find? (·.matches w) with
    | some r => .ok (r.build c w)
    | none => .error (if allocated w then .shouldBeViolated else .unallocated)

/-- A word from its four bytes, the first at the lowest address, in the byte lanes of reset (20_memory.md R82). -/
def wordOfBytes (b0 b1 b2 b3 : Byte) : Word := b3 ++ b2 ++ b1 ++ b0

/-- The instruction at the head of a run of bytes as the hardware stores them after reset (20_memory.md R82, R85). -/
def decodeBytes : List Byte → Except DecodeError Instr
  | b0 :: b1 :: b2 :: b3 :: _ => decode (wordOfBytes b0 b1 b2 b3)
  | _ => .error .truncated

/-- The instruction the decoder reads from an instruction whose low `nbits` bits are those of `w`. -/
def decodeTableWord (nbits w : Nat) : Option Instr :=
  let v : Word := BitVec.ofNat 32 (w % 2 ^ nbits)
  match decodeBytes [v.extractLsb' 0 8, v.extractLsb' 8 8, v.extractLsb' 16 8, v.extractLsb' 24 8] with
  | .ok i => some i
  | .error _ => none

/-- The bits of `x` at position `lo` of a word. -/
def field (lo : Nat) {n : Nat} (x : BitVec n) : Word := x.setWidth 32 <<< lo

/-- The bits of a rotated immediate (30_encoding.md R150). -/
def rotatedImmBits (op : RotatedImm) : Word := field 8 op.rotate ||| field 0 op.imm8

/-- The bits of a register shifted by an immediate amount (30_encoding.md R151). -/
def shiftedRegBits (op : ShiftedReg) : Word := field 7 op.amount ||| field 5 op.type.bits ||| field 0 op.rm

/-- The bits of a register shifted by a register (30_encoding.md R151). -/
def regShiftedRegBits (op : RegShiftedReg) : Word := field 8 op.rs ||| field 5 op.type.bits ||| field 0 op.rm

/-- The bits P, U, W (30_encoding.md R146). -/
def indexingBits (ix : Indexing) : Word :=
  field 24 (BitVec.ofBool ix.p) ||| field 23 (BitVec.ofBool ix.u) ||| field 21 (BitVec.ofBool ix.w)

/-- The bits P, U, S, W (30_encoding.md R146). -/
def blockModeBits (bm : BlockMode) : Word :=
  field 24 (BitVec.ofBool bm.p) ||| field 23 (BitVec.ofBool bm.u) ||| field 22 (BitVec.ofBool bm.s) |||
    field 21 (BitVec.ofBool bm.w)

/-- The two nibbles of a halfword offset (30_encoding.md R153). -/
def splitOffsetBits (off : BitVec 8) : Word := field 8 (off.extractLsb' 4 4) ||| field 0 (off.extractLsb' 0 4)

/-- The word of an instruction: its row's pattern, its condition and its fields (30_encoding.md R142, R177). -/
def encode : Instr → Word
  | .mul c sf rd rs rm =>
    0x00000090#32 ||| field 28 c.bits ||| field 20 (BitVec.ofBool sf) ||| field 16 rd ||| field 8 rs ||| field 0 rm
  | .mla c sf rd rn rs rm =>
    0x00200090#32 ||| field 28 c.bits ||| field 20 (BitVec.ofBool sf) ||| field 16 rd ||| field 12 rn |||
      field 8 rs ||| field 0 rm
  | .umull c sf rdHi rdLo rs rm =>
    0x00800090#32 ||| field 28 c.bits ||| field 20 (BitVec.ofBool sf) ||| field 16 rdHi ||| field 12 rdLo |||
      field 8 rs ||| field 0 rm
  | .umlal c sf rdHi rdLo rs rm =>
    0x00A00090#32 ||| field 28 c.bits ||| field 20 (BitVec.ofBool sf) ||| field 16 rdHi ||| field 12 rdLo |||
      field 8 rs ||| field 0 rm
  | .smull c sf rdHi rdLo rs rm =>
    0x00C00090#32 ||| field 28 c.bits ||| field 20 (BitVec.ofBool sf) ||| field 16 rdHi ||| field 12 rdLo |||
      field 8 rs ||| field 0 rm
  | .smlal c sf rdHi rdLo rs rm =>
    0x00E00090#32 ||| field 28 c.bits ||| field 20 (BitVec.ofBool sf) ||| field 16 rdHi ||| field 12 rdLo |||
      field 8 rs ||| field 0 rm
  | .swp c rn rd rm =>
    0x01000090#32 ||| field 28 c.bits ||| field 16 rn ||| field 12 rd ||| field 0 rm
  | .swpb c rn rd rm =>
    0x01400090#32 ||| field 28 c.bits ||| field 16 rn ||| field 12 rd ||| field 0 rm
  | .strhReg c ix rn rd rm =>
    0x000000B0#32 ||| field 28 c.bits ||| indexingBits ix ||| field 16 rn ||| field 12 rd ||| field 0 rm
  | .strhImm c ix rn rd off =>
    0x004000B0#32 ||| field 28 c.bits ||| indexingBits ix ||| field 16 rn ||| field 12 rd ||| splitOffsetBits off
  | .ldrhReg c ix rn rd rm =>
    0x001000B0#32 ||| field 28 c.bits ||| indexingBits ix ||| field 16 rn ||| field 12 rd ||| field 0 rm
  | .ldrhImm c ix rn rd off =>
    0x005000B0#32 ||| field 28 c.bits ||| indexingBits ix ||| field 16 rn ||| field 12 rd ||| splitOffsetBits off
  | .ldrsbReg c ix rn rd rm =>
    0x001000D0#32 ||| field 28 c.bits ||| indexingBits ix ||| field 16 rn ||| field 12 rd ||| field 0 rm
  | .ldrsbImm c ix rn rd off =>
    0x005000D0#32 ||| field 28 c.bits ||| indexingBits ix ||| field 16 rn ||| field 12 rd ||| splitOffsetBits off
  | .ldrshReg c ix rn rd rm =>
    0x001000F0#32 ||| field 28 c.bits ||| indexingBits ix ||| field 16 rn ||| field 12 rd ||| field 0 rm
  | .ldrshImm c ix rn rd off =>
    0x005000F0#32 ||| field 28 c.bits ||| indexingBits ix ||| field 16 rn ||| field 12 rd ||| splitOffsetBits off
  | .mrs c spsr rd =>
    0x010F0000#32 ||| field 28 c.bits ||| field 22 (BitVec.ofBool spsr) ||| field 12 rd
  | .msrReg c spsr mask rm =>
    0x0120F000#32 ||| field 28 c.bits ||| field 22 (BitVec.ofBool spsr) ||| field 16 mask ||| field 0 rm
  | .msrImm c spsr mask op =>
    0x0320F000#32 ||| field 28 c.bits ||| field 22 (BitVec.ofBool spsr) ||| field 16 mask ||| rotatedImmBits op
  | .andImm c sf rn rd op =>
    0x02000000#32 ||| field 28 c.bits ||| field 20 (BitVec.ofBool sf) ||| field 16 rn ||| field 12 rd |||
      rotatedImmBits op
  | .andReg c sf rn rd op =>
    0x00000000#32 ||| field 28 c.bits ||| field 20 (BitVec.ofBool sf) ||| field 16 rn ||| field 12 rd |||
      shiftedRegBits op
  | .andRsr c sf rn rd op =>
    0x00000010#32 ||| field 28 c.bits ||| field 20 (BitVec.ofBool sf) ||| field 16 rn ||| field 12 rd |||
      regShiftedRegBits op
  | .eorImm c sf rn rd op =>
    0x02200000#32 ||| field 28 c.bits ||| field 20 (BitVec.ofBool sf) ||| field 16 rn ||| field 12 rd |||
      rotatedImmBits op
  | .eorReg c sf rn rd op =>
    0x00200000#32 ||| field 28 c.bits ||| field 20 (BitVec.ofBool sf) ||| field 16 rn ||| field 12 rd |||
      shiftedRegBits op
  | .eorRsr c sf rn rd op =>
    0x00200010#32 ||| field 28 c.bits ||| field 20 (BitVec.ofBool sf) ||| field 16 rn ||| field 12 rd |||
      regShiftedRegBits op
  | .subImm c sf rn rd op =>
    0x02400000#32 ||| field 28 c.bits ||| field 20 (BitVec.ofBool sf) ||| field 16 rn ||| field 12 rd |||
      rotatedImmBits op
  | .subReg c sf rn rd op =>
    0x00400000#32 ||| field 28 c.bits ||| field 20 (BitVec.ofBool sf) ||| field 16 rn ||| field 12 rd |||
      shiftedRegBits op
  | .subRsr c sf rn rd op =>
    0x00400010#32 ||| field 28 c.bits ||| field 20 (BitVec.ofBool sf) ||| field 16 rn ||| field 12 rd |||
      regShiftedRegBits op
  | .rsbImm c sf rn rd op =>
    0x02600000#32 ||| field 28 c.bits ||| field 20 (BitVec.ofBool sf) ||| field 16 rn ||| field 12 rd |||
      rotatedImmBits op
  | .rsbReg c sf rn rd op =>
    0x00600000#32 ||| field 28 c.bits ||| field 20 (BitVec.ofBool sf) ||| field 16 rn ||| field 12 rd |||
      shiftedRegBits op
  | .rsbRsr c sf rn rd op =>
    0x00600010#32 ||| field 28 c.bits ||| field 20 (BitVec.ofBool sf) ||| field 16 rn ||| field 12 rd |||
      regShiftedRegBits op
  | .addImm c sf rn rd op =>
    0x02800000#32 ||| field 28 c.bits ||| field 20 (BitVec.ofBool sf) ||| field 16 rn ||| field 12 rd |||
      rotatedImmBits op
  | .addReg c sf rn rd op =>
    0x00800000#32 ||| field 28 c.bits ||| field 20 (BitVec.ofBool sf) ||| field 16 rn ||| field 12 rd |||
      shiftedRegBits op
  | .addRsr c sf rn rd op =>
    0x00800010#32 ||| field 28 c.bits ||| field 20 (BitVec.ofBool sf) ||| field 16 rn ||| field 12 rd |||
      regShiftedRegBits op
  | .adcImm c sf rn rd op =>
    0x02A00000#32 ||| field 28 c.bits ||| field 20 (BitVec.ofBool sf) ||| field 16 rn ||| field 12 rd |||
      rotatedImmBits op
  | .adcReg c sf rn rd op =>
    0x00A00000#32 ||| field 28 c.bits ||| field 20 (BitVec.ofBool sf) ||| field 16 rn ||| field 12 rd |||
      shiftedRegBits op
  | .adcRsr c sf rn rd op =>
    0x00A00010#32 ||| field 28 c.bits ||| field 20 (BitVec.ofBool sf) ||| field 16 rn ||| field 12 rd |||
      regShiftedRegBits op
  | .sbcImm c sf rn rd op =>
    0x02C00000#32 ||| field 28 c.bits ||| field 20 (BitVec.ofBool sf) ||| field 16 rn ||| field 12 rd |||
      rotatedImmBits op
  | .sbcReg c sf rn rd op =>
    0x00C00000#32 ||| field 28 c.bits ||| field 20 (BitVec.ofBool sf) ||| field 16 rn ||| field 12 rd |||
      shiftedRegBits op
  | .sbcRsr c sf rn rd op =>
    0x00C00010#32 ||| field 28 c.bits ||| field 20 (BitVec.ofBool sf) ||| field 16 rn ||| field 12 rd |||
      regShiftedRegBits op
  | .rscImm c sf rn rd op =>
    0x02E00000#32 ||| field 28 c.bits ||| field 20 (BitVec.ofBool sf) ||| field 16 rn ||| field 12 rd |||
      rotatedImmBits op
  | .rscReg c sf rn rd op =>
    0x00E00000#32 ||| field 28 c.bits ||| field 20 (BitVec.ofBool sf) ||| field 16 rn ||| field 12 rd |||
      shiftedRegBits op
  | .rscRsr c sf rn rd op =>
    0x00E00010#32 ||| field 28 c.bits ||| field 20 (BitVec.ofBool sf) ||| field 16 rn ||| field 12 rd |||
      regShiftedRegBits op
  | .tstImm c rn op =>
    0x03100000#32 ||| field 28 c.bits ||| field 16 rn ||| rotatedImmBits op
  | .tstReg c rn op =>
    0x01100000#32 ||| field 28 c.bits ||| field 16 rn ||| shiftedRegBits op
  | .tstRsr c rn op =>
    0x01100010#32 ||| field 28 c.bits ||| field 16 rn ||| regShiftedRegBits op
  | .teqImm c rn op =>
    0x03300000#32 ||| field 28 c.bits ||| field 16 rn ||| rotatedImmBits op
  | .teqReg c rn op =>
    0x01300000#32 ||| field 28 c.bits ||| field 16 rn ||| shiftedRegBits op
  | .teqRsr c rn op =>
    0x01300010#32 ||| field 28 c.bits ||| field 16 rn ||| regShiftedRegBits op
  | .cmpImm c rn op =>
    0x03500000#32 ||| field 28 c.bits ||| field 16 rn ||| rotatedImmBits op
  | .cmpReg c rn op =>
    0x01500000#32 ||| field 28 c.bits ||| field 16 rn ||| shiftedRegBits op
  | .cmpRsr c rn op =>
    0x01500010#32 ||| field 28 c.bits ||| field 16 rn ||| regShiftedRegBits op
  | .cmnImm c rn op =>
    0x03700000#32 ||| field 28 c.bits ||| field 16 rn ||| rotatedImmBits op
  | .cmnReg c rn op =>
    0x01700000#32 ||| field 28 c.bits ||| field 16 rn ||| shiftedRegBits op
  | .cmnRsr c rn op =>
    0x01700010#32 ||| field 28 c.bits ||| field 16 rn ||| regShiftedRegBits op
  | .orrImm c sf rn rd op =>
    0x03800000#32 ||| field 28 c.bits ||| field 20 (BitVec.ofBool sf) ||| field 16 rn ||| field 12 rd |||
      rotatedImmBits op
  | .orrReg c sf rn rd op =>
    0x01800000#32 ||| field 28 c.bits ||| field 20 (BitVec.ofBool sf) ||| field 16 rn ||| field 12 rd |||
      shiftedRegBits op
  | .orrRsr c sf rn rd op =>
    0x01800010#32 ||| field 28 c.bits ||| field 20 (BitVec.ofBool sf) ||| field 16 rn ||| field 12 rd |||
      regShiftedRegBits op
  | .movImm c sf rd op =>
    0x03A00000#32 ||| field 28 c.bits ||| field 20 (BitVec.ofBool sf) ||| field 12 rd ||| rotatedImmBits op
  | .movReg c sf rd op =>
    0x01A00000#32 ||| field 28 c.bits ||| field 20 (BitVec.ofBool sf) ||| field 12 rd ||| shiftedRegBits op
  | .movRsr c sf rd op =>
    0x01A00010#32 ||| field 28 c.bits ||| field 20 (BitVec.ofBool sf) ||| field 12 rd ||| regShiftedRegBits op
  | .bicImm c sf rn rd op =>
    0x03C00000#32 ||| field 28 c.bits ||| field 20 (BitVec.ofBool sf) ||| field 16 rn ||| field 12 rd |||
      rotatedImmBits op
  | .bicReg c sf rn rd op =>
    0x01C00000#32 ||| field 28 c.bits ||| field 20 (BitVec.ofBool sf) ||| field 16 rn ||| field 12 rd |||
      shiftedRegBits op
  | .bicRsr c sf rn rd op =>
    0x01C00010#32 ||| field 28 c.bits ||| field 20 (BitVec.ofBool sf) ||| field 16 rn ||| field 12 rd |||
      regShiftedRegBits op
  | .mvnImm c sf rd op =>
    0x03E00000#32 ||| field 28 c.bits ||| field 20 (BitVec.ofBool sf) ||| field 12 rd ||| rotatedImmBits op
  | .mvnReg c sf rd op =>
    0x01E00000#32 ||| field 28 c.bits ||| field 20 (BitVec.ofBool sf) ||| field 12 rd ||| shiftedRegBits op
  | .mvnRsr c sf rd op =>
    0x01E00010#32 ||| field 28 c.bits ||| field 20 (BitVec.ofBool sf) ||| field 12 rd ||| regShiftedRegBits op
  | .undefined c hi lo =>
    0x06000010#32 ||| field 28 c.bits ||| field 5 hi ||| field 0 lo
  | .ldrtImm c u rn rd off =>
    0x04300000#32 ||| field 28 c.bits ||| field 23 (BitVec.ofBool u) ||| field 16 rn ||| field 12 rd ||| field 0 off
  | .ldrtReg c u rn rd op =>
    0x06300000#32 ||| field 28 c.bits ||| field 23 (BitVec.ofBool u) ||| field 16 rn ||| field 12 rd |||
      shiftedRegBits op
  | .strtImm c u rn rd off =>
    0x04200000#32 ||| field 28 c.bits ||| field 23 (BitVec.ofBool u) ||| field 16 rn ||| field 12 rd ||| field 0 off
  | .strtReg c u rn rd op =>
    0x06200000#32 ||| field 28 c.bits ||| field 23 (BitVec.ofBool u) ||| field 16 rn ||| field 12 rd |||
      shiftedRegBits op
  | .ldrbtImm c u rn rd off =>
    0x04700000#32 ||| field 28 c.bits ||| field 23 (BitVec.ofBool u) ||| field 16 rn ||| field 12 rd ||| field 0 off
  | .ldrbtReg c u rn rd op =>
    0x06700000#32 ||| field 28 c.bits ||| field 23 (BitVec.ofBool u) ||| field 16 rn ||| field 12 rd |||
      shiftedRegBits op
  | .strbtImm c u rn rd off =>
    0x04600000#32 ||| field 28 c.bits ||| field 23 (BitVec.ofBool u) ||| field 16 rn ||| field 12 rd ||| field 0 off
  | .strbtReg c u rn rd op =>
    0x06600000#32 ||| field 28 c.bits ||| field 23 (BitVec.ofBool u) ||| field 16 rn ||| field 12 rd |||
      shiftedRegBits op
  | .ldrImm c ix rn rd off =>
    0x04100000#32 ||| field 28 c.bits ||| indexingBits ix ||| field 16 rn ||| field 12 rd ||| field 0 off
  | .ldrReg c ix rn rd op =>
    0x06100000#32 ||| field 28 c.bits ||| indexingBits ix ||| field 16 rn ||| field 12 rd ||| shiftedRegBits op
  | .strImm c ix rn rd off =>
    0x04000000#32 ||| field 28 c.bits ||| indexingBits ix ||| field 16 rn ||| field 12 rd ||| field 0 off
  | .strReg c ix rn rd op =>
    0x06000000#32 ||| field 28 c.bits ||| indexingBits ix ||| field 16 rn ||| field 12 rd ||| shiftedRegBits op
  | .ldrbImm c ix rn rd off =>
    0x04500000#32 ||| field 28 c.bits ||| indexingBits ix ||| field 16 rn ||| field 12 rd ||| field 0 off
  | .ldrbReg c ix rn rd op =>
    0x06500000#32 ||| field 28 c.bits ||| indexingBits ix ||| field 16 rn ||| field 12 rd ||| shiftedRegBits op
  | .strbImm c ix rn rd off =>
    0x04400000#32 ||| field 28 c.bits ||| indexingBits ix ||| field 16 rn ||| field 12 rd ||| field 0 off
  | .strbReg c ix rn rd op =>
    0x06400000#32 ||| field 28 c.bits ||| indexingBits ix ||| field 16 rn ||| field 12 rd ||| shiftedRegBits op
  | .ldm c bm rn list =>
    0x08100000#32 ||| field 28 c.bits ||| blockModeBits bm ||| field 16 rn ||| field 0 list
  | .stm c bm rn list =>
    0x08000000#32 ||| field 28 c.bits ||| blockModeBits bm ||| field 16 rn ||| field 0 list
  | .b c off =>
    0x0A000000#32 ||| field 28 c.bits ||| field 0 off
  | .bl c off =>
    0x0B000000#32 ||| field 28 c.bits ||| field 0 off
  | .ldc c p u n w rn crd cp off =>
    0x0C100000#32 ||| field 28 c.bits ||| field 24 (BitVec.ofBool p) ||| field 23 (BitVec.ofBool u) |||
      field 22 (BitVec.ofBool n) ||| field 21 (BitVec.ofBool w) ||| field 16 rn ||| field 12 crd ||| field 8 cp |||
      field 0 off
  | .stc c p u n w rn crd cp off =>
    0x0C000000#32 ||| field 28 c.bits ||| field 24 (BitVec.ofBool p) ||| field 23 (BitVec.ofBool u) |||
      field 22 (BitVec.ofBool n) ||| field 21 (BitVec.ofBool w) ||| field 16 rn ||| field 12 crd ||| field 8 cp |||
      field 0 off
  | .imb c =>
    0x0FF00000#32 ||| field 28 c.bits
  | .imbRange c =>
    0x0FF00001#32 ||| field 28 c.bits
  | .swi c comment =>
    0x0F000000#32 ||| field 28 c.bits ||| field 0 comment
  | .cdp c op1 crn crd cp op2 crm =>
    0x0E000000#32 ||| field 28 c.bits ||| field 20 op1 ||| field 16 crn ||| field 12 crd ||| field 8 cp |||
      field 5 op2 ||| field 0 crm
  | .mrc c op1 crn rd op2 crm =>
    0x0E100F10#32 ||| field 28 c.bits ||| field 21 op1 ||| field 16 crn ||| field 12 rd ||| field 5 op2 |||
      field 0 crm
  | .mcr c op1 crn rd op2 crm =>
    0x0E000F10#32 ||| field 28 c.bits ||| field 21 op1 ||| field 16 crn ||| field 12 rd ||| field 5 op2 |||
      field 0 crm
  | .mrcOther c op1 crn rd cp op2 crm =>
    0x0E100010#32 ||| field 28 c.bits ||| field 21 op1 ||| field 16 crn ||| field 12 rd ||| field 8 cp |||
      field 5 op2 ||| field 0 crm
  | .mcrOther c op1 crn rd cp op2 crm =>
    0x0E000010#32 ||| field 28 c.bits ||| field 21 op1 ||| field 16 crn ||| field 12 rd ||| field 8 cp |||
      field 5 op2 ||| field 0 crm

/-- The condition of an instruction (40_condition_field.md R180). -/
def Instr.cond : Instr → Cond
  | .mul c _ _ _ _ => c
  | .mla c _ _ _ _ _ => c
  | .umull c _ _ _ _ _ => c
  | .umlal c _ _ _ _ _ => c
  | .smull c _ _ _ _ _ => c
  | .smlal c _ _ _ _ _ => c
  | .swp c _ _ _ => c
  | .swpb c _ _ _ => c
  | .strhReg c _ _ _ _ => c
  | .strhImm c _ _ _ _ => c
  | .ldrhReg c _ _ _ _ => c
  | .ldrhImm c _ _ _ _ => c
  | .ldrsbReg c _ _ _ _ => c
  | .ldrsbImm c _ _ _ _ => c
  | .ldrshReg c _ _ _ _ => c
  | .ldrshImm c _ _ _ _ => c
  | .mrs c _ _ => c
  | .msrReg c _ _ _ => c
  | .msrImm c _ _ _ => c
  | .andImm c _ _ _ _ => c
  | .andReg c _ _ _ _ => c
  | .andRsr c _ _ _ _ => c
  | .eorImm c _ _ _ _ => c
  | .eorReg c _ _ _ _ => c
  | .eorRsr c _ _ _ _ => c
  | .subImm c _ _ _ _ => c
  | .subReg c _ _ _ _ => c
  | .subRsr c _ _ _ _ => c
  | .rsbImm c _ _ _ _ => c
  | .rsbReg c _ _ _ _ => c
  | .rsbRsr c _ _ _ _ => c
  | .addImm c _ _ _ _ => c
  | .addReg c _ _ _ _ => c
  | .addRsr c _ _ _ _ => c
  | .adcImm c _ _ _ _ => c
  | .adcReg c _ _ _ _ => c
  | .adcRsr c _ _ _ _ => c
  | .sbcImm c _ _ _ _ => c
  | .sbcReg c _ _ _ _ => c
  | .sbcRsr c _ _ _ _ => c
  | .rscImm c _ _ _ _ => c
  | .rscReg c _ _ _ _ => c
  | .rscRsr c _ _ _ _ => c
  | .tstImm c _ _ => c
  | .tstReg c _ _ => c
  | .tstRsr c _ _ => c
  | .teqImm c _ _ => c
  | .teqReg c _ _ => c
  | .teqRsr c _ _ => c
  | .cmpImm c _ _ => c
  | .cmpReg c _ _ => c
  | .cmpRsr c _ _ => c
  | .cmnImm c _ _ => c
  | .cmnReg c _ _ => c
  | .cmnRsr c _ _ => c
  | .orrImm c _ _ _ _ => c
  | .orrReg c _ _ _ _ => c
  | .orrRsr c _ _ _ _ => c
  | .movImm c _ _ _ => c
  | .movReg c _ _ _ => c
  | .movRsr c _ _ _ => c
  | .bicImm c _ _ _ _ => c
  | .bicReg c _ _ _ _ => c
  | .bicRsr c _ _ _ _ => c
  | .mvnImm c _ _ _ => c
  | .mvnReg c _ _ _ => c
  | .mvnRsr c _ _ _ => c
  | .undefined c _ _ => c
  | .ldrtImm c _ _ _ _ => c
  | .ldrtReg c _ _ _ _ => c
  | .strtImm c _ _ _ _ => c
  | .strtReg c _ _ _ _ => c
  | .ldrbtImm c _ _ _ _ => c
  | .ldrbtReg c _ _ _ _ => c
  | .strbtImm c _ _ _ _ => c
  | .strbtReg c _ _ _ _ => c
  | .ldrImm c _ _ _ _ => c
  | .ldrReg c _ _ _ _ => c
  | .strImm c _ _ _ _ => c
  | .strReg c _ _ _ _ => c
  | .ldrbImm c _ _ _ _ => c
  | .ldrbReg c _ _ _ _ => c
  | .strbImm c _ _ _ _ => c
  | .strbReg c _ _ _ _ => c
  | .ldm c _ _ _ => c
  | .stm c _ _ _ => c
  | .b c _ => c
  | .bl c _ => c
  | .ldc c _ _ _ _ _ _ _ _ => c
  | .stc c _ _ _ _ _ _ _ _ => c
  | .imb c => c
  | .imbRange c => c
  | .swi c _ => c
  | .cdp c _ _ _ _ _ _ => c
  | .mrc c _ _ _ _ _ => c
  | .mcr c _ _ _ _ _ => c
  | .mrcOther c _ _ _ _ _ _ => c
  | .mcrOther c _ _ _ _ _ _ => c

end Sys2Proof
end

