-- ==== Sys2Proof/Machine/Hazard.lean ====
section
/-! DEFINITION. The hazard after a User-bank LDM (70_reset_and_hazards.md R506): which registers of the current mode an
instruction names. -/

namespace Sys2Proof.Machine

/-- The registers a block transfer names in the current mode's bank: the base, and the list unless it is User's
(47_block_data_transfer.md R349 to R351). -/
def blockNames (load : Bool) (bm : BlockMode) (rn : Reg) (list : BitVec 16) : List Reg :=
  if bm.s && !(load && inList list 15#4) then [rn] else rn :: regsOf list

/-- The registers an instruction reads or writes by number (70_reset_and_hazards.md R506); BL writes R14
(41_branch.md R192). An instruction that only traps names none. -/
def namedRegs : Instr → List Reg
  | .mul _ _ rd rs rm => [rd, rs, rm]
  | .mla _ _ rd rn rs rm => [rd, rn, rs, rm]
  | .umull _ _ rdHi rdLo rs rm => [rdHi, rdLo, rs, rm]
  | .umlal _ _ rdHi rdLo rs rm => [rdHi, rdLo, rs, rm]
  | .smull _ _ rdHi rdLo rs rm => [rdHi, rdLo, rs, rm]
  | .smlal _ _ rdHi rdLo rs rm => [rdHi, rdLo, rs, rm]
  | .swp _ rn rd rm => [rn, rd, rm]
  | .swpb _ rn rd rm => [rn, rd, rm]
  | .strhReg _ _ rn rd rm => [rn, rd, rm]
  | .strhImm _ _ rn rd _ => [rn, rd]
  | .ldrhReg _ _ rn rd rm => [rn, rd, rm]
  | .ldrhImm _ _ rn rd _ => [rn, rd]
  | .ldrsbReg _ _ rn rd rm => [rn, rd, rm]
  | .ldrsbImm _ _ rn rd _ => [rn, rd]
  | .ldrshReg _ _ rn rd rm => [rn, rd, rm]
  | .ldrshImm _ _ rn rd _ => [rn, rd]
  | .mrs _ _ rd => [rd]
  | .msrReg _ _ _ rm => [rm]
  | .msrImm _ _ _ _ => []
  | .andImm _ _ rn rd _ => [rn, rd]
  | .andReg _ _ rn rd op => [rn, rd, op.rm]
  | .andRsr _ _ rn rd op => [rn, rd, op.rs, op.rm]
  | .eorImm _ _ rn rd _ => [rn, rd]
  | .eorReg _ _ rn rd op => [rn, rd, op.rm]
  | .eorRsr _ _ rn rd op => [rn, rd, op.rs, op.rm]
  | .subImm _ _ rn rd _ => [rn, rd]
  | .subReg _ _ rn rd op => [rn, rd, op.rm]
  | .subRsr _ _ rn rd op => [rn, rd, op.rs, op.rm]
  | .rsbImm _ _ rn rd _ => [rn, rd]
  | .rsbReg _ _ rn rd op => [rn, rd, op.rm]
  | .rsbRsr _ _ rn rd op => [rn, rd, op.rs, op.rm]
  | .addImm _ _ rn rd _ => [rn, rd]
  | .addReg _ _ rn rd op => [rn, rd, op.rm]
  | .addRsr _ _ rn rd op => [rn, rd, op.rs, op.rm]
  | .adcImm _ _ rn rd _ => [rn, rd]
  | .adcReg _ _ rn rd op => [rn, rd, op.rm]
  | .adcRsr _ _ rn rd op => [rn, rd, op.rs, op.rm]
  | .sbcImm _ _ rn rd _ => [rn, rd]
  | .sbcReg _ _ rn rd op => [rn, rd, op.rm]
  | .sbcRsr _ _ rn rd op => [rn, rd, op.rs, op.rm]
  | .rscImm _ _ rn rd _ => [rn, rd]
  | .rscReg _ _ rn rd op => [rn, rd, op.rm]
  | .rscRsr _ _ rn rd op => [rn, rd, op.rs, op.rm]
  | .tstImm _ rn _ => [rn]
  | .tstReg _ rn op => [rn, op.rm]
  | .tstRsr _ rn op => [rn, op.rs, op.rm]
  | .teqImm _ rn _ => [rn]
  | .teqReg _ rn op => [rn, op.rm]
  | .teqRsr _ rn op => [rn, op.rs, op.rm]
  | .cmpImm _ rn _ => [rn]
  | .cmpReg _ rn op => [rn, op.rm]
  | .cmpRsr _ rn op => [rn, op.rs, op.rm]
  | .cmnImm _ rn _ => [rn]
  | .cmnReg _ rn op => [rn, op.rm]
  | .cmnRsr _ rn op => [rn, op.rs, op.rm]
  | .orrImm _ _ rn rd _ => [rn, rd]
  | .orrReg _ _ rn rd op => [rn, rd, op.rm]
  | .orrRsr _ _ rn rd op => [rn, rd, op.rs, op.rm]
  | .movImm _ _ rd _ => [rd]
  | .movReg _ _ rd op => [rd, op.rm]
  | .movRsr _ _ rd op => [rd, op.rs, op.rm]
  | .bicImm _ _ rn rd _ => [rn, rd]
  | .bicReg _ _ rn rd op => [rn, rd, op.rm]
  | .bicRsr _ _ rn rd op => [rn, rd, op.rs, op.rm]
  | .mvnImm _ _ rd _ => [rd]
  | .mvnReg _ _ rd op => [rd, op.rm]
  | .mvnRsr _ _ rd op => [rd, op.rs, op.rm]
  | .undefined _ _ _ => []
  | .ldrtImm _ _ rn rd _ => [rn, rd]
  | .ldrtReg _ _ rn rd op => [rn, rd, op.rm]
  | .strtImm _ _ rn rd _ => [rn, rd]
  | .strtReg _ _ rn rd op => [rn, rd, op.rm]
  | .ldrbtImm _ _ rn rd _ => [rn, rd]
  | .ldrbtReg _ _ rn rd op => [rn, rd, op.rm]
  | .strbtImm _ _ rn rd _ => [rn, rd]
  | .strbtReg _ _ rn rd op => [rn, rd, op.rm]
  | .ldrImm _ _ rn rd _ => [rn, rd]
  | .ldrReg _ _ rn rd op => [rn, rd, op.rm]
  | .strImm _ _ rn rd _ => [rn, rd]
  | .strReg _ _ rn rd op => [rn, rd, op.rm]
  | .ldrbImm _ _ rn rd _ => [rn, rd]
  | .ldrbReg _ _ rn rd op => [rn, rd, op.rm]
  | .strbImm _ _ rn rd _ => [rn, rd]
  | .strbReg _ _ rn rd op => [rn, rd, op.rm]
  | .ldm _ bm rn list => blockNames true bm rn list
  | .stm _ bm rn list => blockNames false bm rn list
  | .b _ _ => []
  | .bl _ _ => [14#4]
  | .ldc _ _ _ _ _ _ _ _ _ => []
  | .stc _ _ _ _ _ _ _ _ _ => []
  | .imb _ => []
  | .imbRange _ => [0#4, 1#4]
  | .swi _ _ => []
  | .cdp _ _ _ _ _ _ _ => []
  | .mrc _ _ _ rd _ _ => [rd]
  | .mcr _ _ _ rd _ _ => [rd]
  | .mrcOther _ _ _ _ _ _ _ => []
  | .mcrOther _ _ _ _ _ _ _ => []

/-- The instruction must not follow the User-bank LDM that ran last: it is executed and names a register banked in the
current mode (70_reset_and_hazards.md R506; log 24). -/
def hazardous (i : Instr) (s : State) : Bool :=
  s.bankHazard && s.cpsr.flags.pass i.cond && (namedRegs i).any s.cpsr.mode.banked

end Sys2Proof.Machine
end

