-- ==== Sys2Proof/Machine/Fetch.lean ====
section
/-! DEFINITION. What a step does around the meaning of an instruction: the fetch, the interrupts at its end, and a reset
(20_memory.md R92, R114; 60_exceptions.md R434, R452; 70_reset_and_hazards.md R490). -/

namespace Sys2Proof.Machine

/-- How the fetch of the next instruction ends. -/
inductive Fetched where
  /-- An instruction to execute. -/
  | instr (i : Instr) (s : State)
  /-- The word is one that is never executed (30_encoding.md R160, `NV_BEHAVIOUR`). -/
  | never (s : State)
  /-- The fetch aborted (60_exceptions.md R434). -/
  | aborted (s : State)
  | stuck (r : Fault)
  | refused (r : Refusal)
  deriving DecidableEq, Repr

/-- The refusal of a word that is no instruction (30_encoding.md R160 to R162). -/
def refusalOf : DecodeError → Refusal
  | .nvCondition => .nvCondition
  | .shouldBeViolated => .shouldBeViolated
  | .unallocated => .unallocatedEncoding
  | .truncated => .unallocatedEncoding

/-- A fetched word decoded (30_encoding.md R143, R160, R177). -/
def decodeFetched (w : Word) (s : State) : Fetched :=
  match decode w with
  | .ok i => .instr i s
  | .error .nvCondition => if s.plat.nvNeverExecutes then .never s else .refused .nvCondition
  | .error e => .refused (refusalOf e)

/-- Where the instructions at `va` are, the memory system aborting nothing; none where the translation faults (20_memory.md
R92, R105). -/
def fetchTarget (s : State) (va : Word) : Option Word :=
  match translate .fetch s.privileged va (s.withEnv []) with
  | .ok t _ => some t.pa
  | _ => none

/-- The state with the mapping of before a change (48_swap_swi_imb.md R383). -/
def State.under (s : State) (o : OldMapping) : State :=
  ((s.withTlb o.tlb).withMem o.mem).withCp15
    { s.cp15 with control := { s.cp15.control with m := o.m }, ttb := o.ttb }

/-- The change of a mapping has moved the instructions at `va`, and no barrier has covered that address since
(48_swap_swi_imb.md R383). -/
def movedSince (s : State) (va : Word) (o : OldMapping) : Bool :=
  !o.covered.any (·.meets va) && fetchTarget (s.under o) va != fetchTarget s va

/-- Which mapping the instruction at `va` is fetched under is not determined: the prefetch unit may have read it before a
change, and no barrier has followed (48_swap_swi_imb.md R383; 70_reset_and_hazards.md R505; log 50). -/
def mappingOpen (s : State) (va : Word) : Bool := s.oldMaps.any (movedSince s va)

/-- `Fetch(pc)` and the decoding of what it gives (20_memory.md R92, R114; 48_swap_swi_imb.md R383; 60_exceptions.md
R434). -/
def fetch (s : State) : Fetched :=
  if mappingOpen s s.pc then .refused .mappingChanged
  else
    match reach .fetch s.privileged 4 s.pc s with
    | .ok r s' =>
      if staleAt s' s.pc r.pa then .stuck .staleInstruction
      else decodeFetched (s'.mem.readWord (wordCell r.pa)) s'
    | .abort _ s' => .aborted s'
    | .stuck r => .stuck r
    | .refused r => .refused r

/-- The execution of a fetched instruction; the hazard of R506 ends with it (70_reset_and_hazards.md R506). -/
def execChecked (i : Instr) (s : State) : Result :=
  if hazardous i s then .refused .bankedAfterUserLdm else exec i (s.withBankHazard false)

/-- The first part of a step: fetch and execute (60_exceptions.md R452 step 1, R434; D26). -/
def runInstruction (s : State) : Result :=
  match fetch s with
  | .instr i s' => execChecked i s'
  | .never s' => advance (s'.withBankHazard false)
  | .aborted s' => .next (takeException .prefetchAbort (s.pc + 4#32) s')
  | .stuck r => .fault r
  | .refused r => .refused r

/-- The second part of a step: FIQ before IRQ, each under its mask (60_exceptions.md R431, R432, R452 step 2). -/
def takeInterrupt (s : State) : State :=
  if s.inputs.fiqLine && !s.cpsr.f then takeException .fiq (s.pc + 4#32) s
  else if s.inputs.irqLine && !s.cpsr.i then takeException .irq (s.pc + 4#32) s
  else s

/-- The end of a step: interrupts, then the inputs move on. -/
def endStep (r : Result) : Result :=
  match r with
  | .next s => .next (takeInterrupt s).nextInputs
  | .fault x => .fault x
  | .refused x => .refused x

/-- The SPSR a free word holds. -/
def freeSpsr (w : Word) : Spsr :=
  { flags := Flags.ofWord w, i := w.getLsbD 7, f := w.getLsbD 6, m := w.extractLsb' 0 5 }

/-- Registers that hold nothing known (10_state.md R29; log 15). -/
def freeRegs (f : Nat → Word) : Regs where
  r0 := f 0
  r1 := f 1
  r2 := f 2
  r3 := f 3
  r4 := f 4
  r5 := f 5
  r6 := f 6
  r7 := f 7
  r8Usr := f 8
  r9Usr := f 9
  r10Usr := f 10
  r11Usr := f 11
  r12Usr := f 12
  r8Fiq := f 13
  r9Fiq := f 14
  r10Fiq := f 15
  r11Fiq := f 16
  r12Fiq := f 17
  r13Usr := f 18
  r14Usr := f 19
  r13Fiq := f 20
  r14Fiq := f 21
  r13Irq := f 22
  r14Irq := f 23
  r13Svc := f 24
  r14Svc := f 25
  r13Abt := f 26
  r14Abt := f 27
  r13Und := f 28
  r14Und := f 29

/-- CP15 after a reset: M, C and W cleared (10_state.md R72), A, B, S, R and Z cleared (R63), the rest not known
(10_state.md section 7; log 15). -/
def freeCp15 (f : Nat → Word) : Cp15 where
  control := Control.atReset
  ttb := (f 0).extractLsb' 0 18
  dac := f 1
  fsrStatus := (f 2).extractLsb' 0 4
  fsrDomain := (f 2).extractLsb' 4 4
  far := f 3
  cacheLockdown := f 4
  tlbLockdown := f 5
  testClock := f 6

/-- The cells that read differently in two memories. -/
def changedCells (old new : Memory) : List Nat :=
  ((old ++ new).map fun x => x.1).filter fun a => old.read a != new.read a

/-- Each of the cells takes what `new` holds, or is left, by a draw (70_reset_and_hazards.md R490). -/
def leavePartial (new : Memory) : List Nat → State → State
  | [], s => s
  | a :: as, s =>
    leavePartial new as
      (if s.draw.getLsbD 0 then s.drawn.withMem (s.mem.write a (new.read a)) else s.drawn)

/-- The instruction that a reset abandons: its partial effects on memory are unspecified, so each byte it would have
changed is as before or as it would have left it, by a draw (70_reset_and_hazards.md R490; 60_exceptions.md R421;
20_memory.md R96; log 15). -/
def abandon (s : State) : State :=
  match runInstruction s with
  | .next t => leavePartial t.mem (changedCells s.mem t.mem) (s.withDraws t.draws)
  | .fault _ => s
  | .refused _ => s

/-- What a reset does when nRESET rises (70_reset_and_hazards.md R490): pc, mode, I, F and the control register as the
rule says; memory unchanged (20_memory.md R96); the coherence set emptied; everything the rule leaves unspecified a free
value (log 15). That it also ends the hazard of a User-bank LDM is a DESIGN CHOICE (log 24). -/
def resetEntry (s : State) : State where
  regs := freeRegs fun k => Config.freeWord (s.draws + k)
  pc := 0#32
  cpsr := { flags := Flags.ofWord (Config.freeWord (s.draws + 30)), i := true, f := true, mode := .svc }
  spsr :=
    { fiq := freeSpsr (Config.freeWord (s.draws + 31)), irq := freeSpsr (Config.freeWord (s.draws + 32)),
      svc := freeSpsr (Config.freeWord (s.draws + 33)), abt := freeSpsr (Config.freeWord (s.draws + 34)),
      und := freeSpsr (Config.freeWord (s.draws + 35)) }
  cp15 := freeCp15 fun k => Config.freeWord (s.draws + 36 + k)
  mem := s.mem
  stale := []
  oldMaps := []
  tlb := s.tlb
  bankHazard := false
  env := s.env
  plat := s.plat
  draws := s.draws + 43

/-- The physical address of the next fetch, where it has one (20_memory.md R92). -/
def fetchAddress (s : State) : Word :=
  match translate .fetch s.privileged s.pc s with
  | .ok t _ => t.pa
  | _ => s.pc

/-- The word `v` placed where the next instruction is fetched, as a program loaded from outside: no IMB is awaited
(48_swap_swi_imb.md R383; log 35). -/
def placeFetched (s : State) (v : Word) : State :=
  let pa := fetchAddress s
  let t := (s.withMem (s.mem.writeWord (wordCell pa) v)).withStale (s.stale.filter fun w => w.pa != pa)
  t.withOldMaps (s.oldMaps.filter fun o => !movedSince t s.pc o)

end Sys2Proof.Machine
end

