-- ==== Sys2Proof/Machine/Step.lean ====
section
/-! DEFINITION. One step of the machine (60_exceptions.md R452; 70_reset_and_hazards.md R490, R492): a reset, which has
the highest priority and abandons the instruction in progress, or one instruction and the interrupts at its end. -/

namespace Sys2Proof.Machine

/-- One step. -/
def step (s : State) : Host.Outcome State Fault Refusal :=
  if s.inputs.reset then .next (resetEntry (abandon s)).nextInputs else endStep (runInstruction s)

/-- `s` with the instruction whose low `nbits` bits are those of `w` where the next step fetches. -/
def State.withFetchWord (s : State) (nbits w : Nat) : State := placeFetched s (BitVec.ofNat 32 (w % 2 ^ nbits))

end Sys2Proof.Machine
end

