-- ==== Sys2Proof/Safety.lean ====
section
/-! DEFINITION. The words in which claims are made about the machine: the invariant, what stays the same, and the
instructions of a family as one function of their operation. -/

namespace Sys2Proof.Machine

/-- A cached translation holds the descriptors of its kind: 0b10 for a section, 0b01 above a page table, 0b01 for a large
page, 0b10 for a small one (20_memory.md R102, R103). -/
def TlbEntry.wf (e : TlbEntry) : Bool :=
  match e.size with
  | .sectionMap => e.l1.extractLsb' 0 2 == 2#2
  | .large => e.l1.extractLsb' 0 2 == 1#2 && e.l2.extractLsb' 0 2 == 1#2
  | .small => e.l1.extractLsb' 0 2 == 1#2 && e.l2.extractLsb' 0 2 == 2#2

/-- A word of the coherence set names a word: its address is a multiple of 4 (20_memory.md R114). -/
def StaleWord.wf (w : StaleWord) : Bool := wordAligned w.pa == w.pa

/-- The invariant of the machine: memory is canonical, the PC addresses a word (10_state.md R30), the coherence set holds
word addresses (20_memory.md R114), the TLB holds mapping descriptors (20_memory.md R102, R103), and so it is with the TLB
and the memory of every mapping on record (48_swap_swi_imb.md R383). -/
structure State.Inv (s : State) : Prop where
  mem   : s.mem.wf = true
  pc    : wordAligned s.pc = s.pc
  stale : ∀ w ∈ s.stale, w.wf = true
  tlb   : ∀ e ∈ s.tlb, e.wf = true
  old   : ∀ o ∈ s.oldMaps, o.mem.wf = true ∧ ∀ e ∈ o.tlb, e.wf = true

/-- The two states differ in the TLB and the count of draws only: what an access may change beside memory. -/
def SameButLookup (s t : State) : Prop := t = (s.withTlb t.tlb).withDraws t.draws

/-- Cell `a` of memory is one of the `n` cells from `lo` on. -/
def inCells (lo n a : Nat) : Prop := lo ≤ a ∧ a < lo + n

/-- Every byte outside the `n` from cell `lo` on reads the same in both states. -/
def SameOutside (lo n : Nat) (s t : State) : Prop := ∀ a, ¬ inCells lo n a → t.mem.read a = s.mem.read a

/-- Every byte of memory reads the same in both states, and the same words await an IMB. -/
def MemKept (s t : State) : Prop := (∀ a, t.mem.read a = s.mem.read a) ∧ t.stale = s.stale

/-- Every physical register reads the same in both states, but those that the numbers `rs` name in the mode of `s`. -/
def RegsKept (rs : List Reg) (s t : State) : Prop :=
  ∀ p, (∀ r ∈ rs, s.cpsr.mode.bank r ≠ some p) → t.regs.get p = s.regs.get p

/-- The control bits of the CPSR, every SPSR and every CP15 register are the same. -/
structure ControlKept (s t : State) : Prop where
  i    : t.cpsr.i = s.cpsr.i
  f    : t.cpsr.f = s.cpsr.f
  mode : t.cpsr.mode = s.cpsr.mode
  spsr : t.spsr = s.spsr
  cp15 : t.cp15 = s.cp15

/-- The mappings on record, the parameters and the inputs are the same. -/
structure OutsideKept (s t : State) : Prop where
  oldMaps : t.oldMaps = s.oldMaps
  plat    : t.plat = s.plat
  env     : t.env = s.env

/-- What an instruction that accesses memory keeps beside registers, flags and memory: control bits, SPSRs, CP15, the
hazard bit, the mappings on record, the parameters, the inputs. The TLB may gain a translation (10_state.md R78). -/
structure RestKept (s t : State) : Prop where
  control : ControlKept s t
  outside : OutsideKept s t
  hazard  : t.bankHazard = s.bankHazard

/-- The hazard bit, the TLB, the mappings on record, the parameters and the inputs are the same. -/
structure OtherKept (s t : State) : Prop where
  outside : OutsideKept s t
  hazard  : t.bankHazard = s.bankHazard
  tlb     : t.tlb = s.tlb

/-- What an instruction that makes no access keeps beside registers and flags: all that `RestKept` says, the TLB, and
memory. -/
structure AllKept (s t : State) : Prop where
  rest : RestKept s t
  tlb  : t.tlb = s.tlb
  mem  : MemKept s t

/-- The condition of an instruction holds and there is an instruction after it: what an instruction that goes on at
`pc + 4` needs beside its operands (10_state.md R33, R34; 40_condition_field.md R180). -/
abbrev Runs (c : Cond) (s : State) : Prop := s.cpsr.flags.pass c = true ∧ s.pc ≠ 0xFFFFFFFC#32

/-- `s` with the next instruction to come. -/
def State.next4 (s : State) : State := s.withPc (s.pc + 4#32)

/-- From `s` to `t` the exception `e` is entered with `ret` as the return address, and no other general register and no
other SPSR changes (60_exceptions.md R430, R439). -/
structure Entered (e : Exc) (ret : Word) (s t : State) : Prop where
  pc     : t.pc = e.vector
  link   : t.regs.get e.mode.bank14 = ret
  regs   : ∀ p, p ≠ e.mode.bank14 → t.regs.get p = s.regs.get p
  saved  : t.spsr.get e.mode = some s.cpsr.saved
  spsrs  : ∀ m, m ≠ e.mode → t.spsr.get m = s.spsr.get m
  flags  : t.cpsr.flags = s.cpsr.flags
  i      : t.cpsr.i = true
  f      : t.cpsr.f = (s.cpsr.f || decide (e = .fiq))
  mode   : t.cpsr.mode = e.mode

/-- The fault status and address registers after an abort: written where the MMU raised it, else as before, and no other
CP15 register changes (10_state.md R66, R67; 60_exceptions.md R435). -/
def FaultNoted (f : Option FaultStatus) (far : Word) (s t : State) : Prop :=
  match f with
  | some x => t.cp15 = { s.cp15 with fsrStatus := x.status, fsrDomain := x.domain, far := far }
  | none => t.cp15 = s.cp15

/-- The Data Abort of an instruction in `s` is taken: R14_abt holds its address plus 8, the fault is noted with the address
`far`, no other register, hazard, mapping, parameter or input changes (60_exceptions.md R435). -/
structure AbortTaken (f : Option FaultStatus) (far : Word) (s t : State) : Prop where
  entered : Entered .dataAbort (s.pc + 8#32) s t
  noted   : FaultNoted f far s t
  outside : OutsideKept s t
  hazard  : t.bankHazard = s.bankHazard

/-- The state a Data Abort is entered from: the fault recorded where the MMU raised it (60_exceptions.md R440). -/
def faultRecorded (f : Option FaultStatus) (far : Word) (s : State) : State :=
  match f with
  | some x => s.recordFault x far
  | none => s

/-! ### What a translation leads to -/

/-- An access that is mapped to `pa` by a descriptor with the access permissions `ap` and the domain `dom`, `page` if it is a
page's, is allowed to a manager of the domain and to a client whom the permissions allow; it then reaches `pa` where memory
stands, stops where nothing or a device does, or is aborted by the memory system (as a cache line fetch at most where it is
a plain read and the cache is on). Else it is a permission fault or a domain fault, of a page or of a section; the reserved
row of the permissions is refused. `t` is the state left (20_memory.md R104 to R106; 10_state.md R65). -/
def AccessChecked (kind : AccessKind) (priv : Bool) (n : Nat) (va pa : Word) (ap : BitVec 2) (dom : BitVec 4) (page : Bool)
    (s t : State) : Prop :=
  ∀ access allowed, access = (domainAccess s.cp15.dac dom).toNat →
    allowed = permits ap s.cp15.control priv (kind == .write) →
    ((access = 3 ∨ access = 1 ∧ allowed = some true) → s.aborted pa n kind = false →
      (s.kindAt pa n = some .ram → reach kind priv n va s = .ok { pa := pa, rom := false } t) ∧
      (s.kindAt pa n = some .rom → reach kind priv n va s = .ok { pa := pa, rom := true } t) ∧
      (s.kindAt pa n = some .device → reach kind priv n va s = .refused .deviceAccess) ∧
      (s.kindAt pa n = none → reach kind priv n va s = .stuck .unmapped)) ∧
    ((access = 3 ∨ access = 1 ∧ allowed = some true) → s.aborted pa n kind = true →
      ∃ status, reach kind priv n va s = .abort (some { status := status, domain := dom }) t.drawn ∧
        (status = (if page then 0b1010#4 else 0b1000#4) ∨ status = (if page then 0b0110#4 else 0b0100#4)) ∧
        (kind ≠ .read ∨ s.cp15.control.c = false → status = if page then 0b1010#4 else 0b1000#4)) ∧
    (access = 1 → allowed = some false →
      reach kind priv n va s =
        .abort (some { status := if page then 0b1111#4 else 0b1101#4, domain := dom }) t) ∧
    (access = 1 → allowed = none → reach kind priv n va s = .refused .reservedPermission) ∧
    (access = 0 ∨ access = 2 →
      reach kind priv n va s = .abort (some { status := if page then 0b1011#4 else 0b1001#4, domain := dom }) t)

/-- The table word at physical address `a` can be read and holds `v` (20_memory.md R108). -/
def TableHolds (a v : Word) (s : State) : Prop :=
  s.aborted a 4 .read = false ∧ (s.kindAt a 4 = some .ram ∨ s.kindAt a 4 = some .rom) ∧ v = s.mem.readWord (wordCell a)

/-! ### The instructions of a family, and what their completion means -/

/-- The data-processing instruction of an operation, immediate form; TST, TEQ, CMP, CMN have no S and no Rd, MOV and MVN
no Rn (30_encoding.md R144, R161). -/
def immInstr (op : DpOp) (c : Cond) (sf : Bool) (rn rd : Reg) (imm : RotatedImm) : Instr :=
  match op with
  | .and => .andImm c sf rn rd imm | .eor => .eorImm c sf rn rd imm | .sub => .subImm c sf rn rd imm
  | .rsb => .rsbImm c sf rn rd imm | .add => .addImm c sf rn rd imm | .adc => .adcImm c sf rn rd imm
  | .sbc => .sbcImm c sf rn rd imm | .rsc => .rscImm c sf rn rd imm | .tst => .tstImm c rn imm
  | .teq => .teqImm c rn imm | .cmp => .cmpImm c rn imm | .cmn => .cmnImm c rn imm
  | .orr => .orrImm c sf rn rd imm | .mov => .movImm c sf rd imm | .bic => .bicImm c sf rn rd imm
  | .mvn => .mvnImm c sf rd imm

/-- The data-processing instruction of an operation, register shifted by an immediate. -/
def regInstr (op : DpOp) (c : Cond) (sf : Bool) (rn rd : Reg) (sh : ShiftedReg) : Instr :=
  match op with
  | .and => .andReg c sf rn rd sh | .eor => .eorReg c sf rn rd sh | .sub => .subReg c sf rn rd sh
  | .rsb => .rsbReg c sf rn rd sh | .add => .addReg c sf rn rd sh | .adc => .adcReg c sf rn rd sh
  | .sbc => .sbcReg c sf rn rd sh | .rsc => .rscReg c sf rn rd sh | .tst => .tstReg c rn sh
  | .teq => .teqReg c rn sh | .cmp => .cmpReg c rn sh | .cmn => .cmnReg c rn sh
  | .orr => .orrReg c sf rn rd sh | .mov => .movReg c sf rd sh | .bic => .bicReg c sf rn rd sh
  | .mvn => .mvnReg c sf rd sh

/-- The data-processing instruction of an operation, register shifted by a register. -/
def rsrInstr (op : DpOp) (c : Cond) (sf : Bool) (rn rd : Reg) (sh : RegShiftedReg) : Instr :=
  match op with
  | .and => .andRsr c sf rn rd sh | .eor => .eorRsr c sf rn rd sh | .sub => .subRsr c sf rn rd sh
  | .rsb => .rsbRsr c sf rn rd sh | .add => .addRsr c sf rn rd sh | .adc => .adcRsr c sf rn rd sh
  | .sbc => .sbcRsr c sf rn rd sh | .rsc => .rscRsr c sf rn rd sh | .tst => .tstRsr c rn sh
  | .teq => .teqRsr c rn sh | .cmp => .cmpRsr c rn sh | .cmn => .cmnRsr c rn sh
  | .orr => .orrRsr c sf rn rd sh | .mov => .movRsr c sf rd sh | .bic => .bicRsr c sf rn rd sh
  | .mvn => .mvnRsr c sf rd sh

/-- The exact integer an arithmetic operation stands for, before it is narrowed (42_data_processing.md R216 to R221, R224,
R225); none for a logical operation. -/
def DpOp.exact (op : DpOp) (a b : Int) (c : Bool) : Option Int :=
  match op with
  | .sub => some (a - b)
  | .cmp => some (a - b)
  | .rsb => some (b - a)
  | .add => some (a + b)
  | .cmn => some (a + b)
  | .adc => some (a + b + c.toNat)
  | .sbc => some (a - b - (1 - c.toNat))
  | .rsc => some (b - a - (1 - c.toNat))
  | _ => none

/-- The arithmetic operation subtracts: its C is the inverse of borrow (42_data_processing.md R212). -/
def DpOp.subtracts : DpOp → Bool
  | .sub | .rsb | .sbc | .rsc | .cmp => true
  | _ => false

/-- The bit function a logical operation applies (42_data_processing.md R214, R215, R222, R223, R226 to R229); none for an
arithmetic operation. -/
def DpOp.bitwise (op : DpOp) (a b : Bool) : Option Bool :=
  match op with
  | .and => some (a && b)
  | .tst => some (a && b)
  | .eor => some (a != b)
  | .teq => some (a != b)
  | .orr => some (a || b)
  | .mov => some b
  | .bic => some (a && !b)
  | .mvn => some (!b)
  | _ => none

/-- A data-processing instruction with the result `x` is done: its register (none for TST, TEQ, CMP, CMN), its flags (with
S, and always for those four), the next instruction, and nothing else (42_data_processing.md R200, R212). -/
def DpDone (op : DpOp) (sf : Bool) (rd : Reg) (x : AluOut) (s t : State) : Prop :=
  (op.compares = false → t.readReg rd = x.result) ∧
  t.cpsr.flags = (if sf || op.compares then x.flags else s.cpsr.flags) ∧
  t.pc = s.pc + 4#32 ∧ RegsKept (if op.compares then [] else [rd]) s t ∧ AllKept s t

/-- `i` is an MSR with the operand `v`: the immediate form, or the register form with a register other than R15
(43_psr_transfer.md R252, R253). -/
def MsrOperand (c : Cond) (spsr : Bool) (mask : BitVec 4) (i : Instr) (v : Word) (s : State) : Prop :=
  (∃ op, i = .msrImm c spsr mask op ∧ v = rotatedValue op) ∨
  (∃ rm, rm ≠ 15#4 ∧ i = .msrReg c spsr mask rm ∧ v = s.readReg rm)

/-- N, Z, C and V are bits 31 to 28 of `v` (10_state.md R41). -/
def FlagsAre (fl : Flags) (v : Word) : Prop :=
  fl.n = v.getLsbD 31 ∧ fl.z = v.getLsbD 30 ∧ fl.c = v.getLsbD 29 ∧ fl.v = v.getLsbD 28

/-- A multiply with the 32-bit result `p` is done; with S nothing is said of C (44_multiply.md R272). -/
def MulDone (sf : Bool) (rd : Reg) (p : Word) (s t : State) : Prop :=
  t.readReg rd = p ∧ t.cpsr.flags.v = s.cpsr.flags.v ∧
  (sf = true → t.cpsr.flags.n = p.getLsbD 31 ∧ t.cpsr.flags.z = decide (p = 0#32)) ∧
  (sf = false → t.cpsr.flags = s.cpsr.flags) ∧
  t.pc = s.pc + 4#32 ∧ RegsKept [rd] s t ∧ AllKept s t

/-- A long multiply with the 64-bit result `p` is done; with S nothing is said of C and V (44_multiply.md R272). -/
def MulLongDone (sf : Bool) (rdHi rdLo : Reg) (p : BitVec 64) (s t : State) : Prop :=
  t.readReg rdHi ++ t.readReg rdLo = p ∧
  (sf = true → t.cpsr.flags.n = p.getLsbD 63 ∧ t.cpsr.flags.z = decide (p = 0#64)) ∧
  (sf = false → t.cpsr.flags = s.cpsr.flags) ∧
  t.pc = s.pc + 4#32 ∧ RegsKept [rdHi, rdLo] s t ∧ AllKept s t

/-- The eight single transfers (45_single_data_transfer.md R290, R304). -/
inductive SingleKind where
  | ldr | str | ldrb | strb | ldrt | strt | ldrbt | strbt
  deriving DecidableEq, Repr

/-- The transfer is a translate form (45_single_data_transfer.md R304). -/
def SingleKind.translate : SingleKind → Bool
  | .ldrt | .strt | .ldrbt | .strbt => true
  | _ => false

/-- The indexing of a transfer: that of its word, but post-indexed with writeback in a translate form. -/
def SingleKind.indexing (k : SingleKind) (ix : Indexing) : Indexing :=
  if k.translate then translateIndexing ix.u else ix

/-- The access is made with privilege: the current mode's, none in a translate form (45_single_data_transfer.md R304). -/
def SingleKind.priv (k : SingleKind) (s : State) : Bool := !k.translate && s.privileged

/-- The two offsets of a single transfer (45_single_data_transfer.md R291). -/
inductive SingleOffset where
  | imm (off : BitVec 12)
  | reg (op : ShiftedReg)
  deriving DecidableEq, Repr

/-- The value of the offset (45_single_data_transfer.md R291). -/
def SingleOffset.value (o : SingleOffset) (s : State) : Word :=
  match o with
  | .imm off => offset12 off
  | .reg op => shiftedOffset op s

/-- The offset register is allowed (45_single_data_transfer.md R293 c, d). -/
def SingleOffset.ok (o : SingleOffset) (ix : Indexing) (rn : Reg) : Bool :=
  match o with
  | .imm _ => true
  | .reg op => offsetRegOk ix rn op.rm

/-- The single transfer of a kind and an offset; a translate form takes only U of the indexing. -/
def singleInstr (k : SingleKind) (o : SingleOffset) (c : Cond) (ix : Indexing) (rn rd : Reg) : Instr :=
  match k, o with
  | .ldr, .imm off => .ldrImm c ix rn rd off
  | .ldr, .reg op => .ldrReg c ix rn rd op
  | .str, .imm off => .strImm c ix rn rd off
  | .str, .reg op => .strReg c ix rn rd op
  | .ldrb, .imm off => .ldrbImm c ix rn rd off
  | .ldrb, .reg op => .ldrbReg c ix rn rd op
  | .strb, .imm off => .strbImm c ix rn rd off
  | .strb, .reg op => .strbReg c ix rn rd op
  | .ldrt, .imm off => .ldrtImm c ix.u rn rd off
  | .ldrt, .reg op => .ldrtReg c ix.u rn rd op
  | .strt, .imm off => .strtImm c ix.u rn rd off
  | .strt, .reg op => .strtReg c ix.u rn rd op
  | .ldrbt, .imm off => .ldrbtImm c ix.u rn rd off
  | .ldrbt, .reg op => .ldrbtReg c ix.u rn rd op
  | .strbt, .imm off => .strbtImm c ix.u rn rd off
  | .strbt, .reg op => .strbtReg c ix.u rn rd op

/-- The address of a single transfer (45_single_data_transfer.md R292). -/
def singleAddr (k : SingleKind) (o : SingleOffset) (ix : Indexing) (rn : Reg) (s : State) : Word :=
  transferAddr (k.indexing ix) (s.readReg rn) (o.value s)

/-- The base of a single transfer after a writeback (45_single_data_transfer.md R292). -/
def singleBase (k : SingleKind) (o : SingleOffset) (ix : Indexing) (rn : Reg) (s : State) : Word :=
  offsetAddr (k.indexing ix) (s.readReg rn) (o.value s)

/-- The transfer moves a byte. -/
def SingleKind.byte : SingleKind → Bool
  | .ldrb | .strb | .ldrbt | .strbt => true
  | _ => false

/-- The transfer is a load. -/
def SingleKind.load : SingleKind → Bool
  | .ldr | .ldrb | .ldrt | .ldrbt => true
  | _ => false

/-- The operands of a single transfer are allowed (45_single_data_transfer.md R293 a to e). -/
def singleOk (k : SingleKind) (o : SingleOffset) (ix : Indexing) (rn rd : Reg) : Bool :=
  baseOk (k.indexing ix) rn rd && !((k.translate || k.byte) && isPc rd) && o.ok (k.indexing ix) rn

/-- The four halfword and signed transfers (46_halfword_signed_transfer.md R320). -/
inductive HalfKind where
  | strh | ldrh | ldrsb | ldrsh
  deriving DecidableEq, Repr

/-- The two offsets of a halfword transfer (46_halfword_signed_transfer.md R320). -/
inductive HalfOffset where
  | imm (off : BitVec 8)
  | reg (rm : Reg)
  deriving DecidableEq, Repr

/-- The value of the offset (46_halfword_signed_transfer.md R320). -/
def HalfOffset.value (o : HalfOffset) (s : State) : Word :=
  match o with
  | .imm off => offset8 off
  | .reg rm => s.readReg rm

/-- The halfword transfer of a kind and an offset. -/
def halfInstr (k : HalfKind) (o : HalfOffset) (c : Cond) (ix : Indexing) (rn rd : Reg) : Instr :=
  match k, o with
  | .strh, .imm off => .strhImm c ix rn rd off
  | .strh, .reg rm => .strhReg c ix rn rd rm
  | .ldrh, .imm off => .ldrhImm c ix rn rd off
  | .ldrh, .reg rm => .ldrhReg c ix rn rd rm
  | .ldrsb, .imm off => .ldrsbImm c ix rn rd off
  | .ldrsb, .reg rm => .ldrsbReg c ix rn rd rm
  | .ldrsh, .imm off => .ldrshImm c ix rn rd off
  | .ldrsh, .reg rm => .ldrshReg c ix rn rd rm

/-- The operands of a halfword transfer are allowed (46_halfword_signed_transfer.md R323 a to d). -/
def halfOk (o : HalfOffset) (ix : Indexing) (rn rd : Reg) : Bool :=
  match o with
  | .imm _ => halfImmOk ix rn rd
  | .reg rm => halfRegOk ix rn rd rm

/-- The address of a halfword transfer (46_halfword_signed_transfer.md R322). -/
def halfAddr (o : HalfOffset) (ix : Indexing) (rn : Reg) (s : State) : Word :=
  transferAddr ix (s.readReg rn) (o.value s)

/-- The base of a halfword transfer after a writeback (46_halfword_signed_transfer.md R322). -/
def halfBase (o : HalfOffset) (ix : Indexing) (rn : Reg) (s : State) : Word :=
  offsetAddr ix (s.readReg rn) (o.value s)

/-- A load of the value `v` is done: its register, the base where it is written back (as `base`), the next instruction,
and nothing else (45_single_data_transfer.md R302). -/
def LoadDone (ix : Indexing) (rn rd : Reg) (base v : Word) (s t : State) : Prop :=
  t.readReg rd = v ∧ (writesBack ix = true → t.readReg rn = base) ∧ t.pc = s.pc + 4#32 ∧
  RegsKept (if writesBack ix then [rn, rd] else [rd]) s t ∧ t.cpsr.flags = s.cpsr.flags ∧ RestKept s t ∧ MemKept s t

/-- What a store that reached `r`, in the state `u` of its access, leaves to await a barrier: with RAM there its word,
whatever address it is fetched from, and no other that did not; and the mapping of before, where the MMU is on and the word
is one of the translation tables (20_memory.md R114; 48_swap_swi_imb.md R383). -/
structure Awaits (u : State) (r : Reached) (s t : State) : Prop where
  word   : r.rom = false → ∀ va, staleAt t va (wordAligned r.pa) = true
  others : ∀ va pa, (r.rom = false → pa ≠ wordAligned r.pa) → staleAt t va pa = staleAt s va pa
  maps   : t.oldMaps = if r.rom = false ∧ s.cp15.control.m = true ∧ tableWord s r.pa = true then
    { m := true, ttb := s.cp15.ttb, tlb := u.tlb, mem := s.mem, covered := [] } :: s.oldMaps else s.oldMaps

/-- A store to `n` cells from `lo` on is done, having reached `r` in the state `u` of its access: every byte outside them as
before (every byte of memory, where it is ROM), the base where it is written back, the next instruction, what awaits a
barrier, and nothing else (45_single_data_transfer.md R302). -/
def StoreDone (ix : Indexing) (rn : Reg) (base : Word) (lo n : Nat) (u : State) (r : Reached) (s t : State) : Prop :=
  (writesBack ix = true → t.readReg rn = base) ∧ t.pc = s.pc + 4#32 ∧
  RegsKept (if writesBack ix then [rn] else []) s t ∧ t.cpsr.flags = s.cpsr.flags ∧
  RestKept s (t.withOldMaps s.oldMaps) ∧ SameOutside lo n s t ∧ (r.rom = true → MemKept s t) ∧ Awaits u r s t

/-- The instruction is one that no unit of the chip executes: it takes the undefined instruction trap in every mode
(49_coprocessor_undefined.md R398 b, R399, R400). -/
def trapsAlways : Instr → Bool
  | .undefined _ _ _ => true
  | .ldc _ _ _ _ _ _ _ _ _ => true
  | .stc _ _ _ _ _ _ _ _ _ => true
  | .cdp _ _ _ _ _ _ _ => true
  | .mrcOther _ _ _ _ _ _ _ => true
  | .mcrOther _ _ _ _ _ _ _ => true
  | _ => false

/-- The instruction that returns from an exception the normal way (60_exceptions.md R439): MOVS PC,R14 or
SUBS PC,R14,#4 or SUBS PC,R14,#8. -/
def Exc.returnInstr : Exc → Instr
  | .undefined => .movReg .al true 15#4 { amount := 0#5, type := .lsl, rm := 14#4 }
  | .swi => .movReg .al true 15#4 { amount := 0#5, type := .lsl, rm := 14#4 }
  | .prefetchAbort => .subImm .al true 14#4 15#4 { rotate := 0#4, imm8 := 4#8 }
  | .dataAbort => .subImm .al true 14#4 15#4 { rotate := 0#4, imm8 := 8#8 }
  | .irq => .subImm .al true 14#4 15#4 { rotate := 0#4, imm8 := 4#8 }
  | .fiq => .subImm .al true 14#4 15#4 { rotate := 0#4, imm8 := 4#8 }

/-- What the normal return takes from R14 (60_exceptions.md R439, R466). -/
def Exc.returnOffset : Exc → Word
  | .undefined => 0#32 | .swi => 0#32 | .prefetchAbort => 4#32 | .dataAbort => 8#32 | .irq => 4#32 | .fiq => 4#32

end Sys2Proof.Machine
end

