-- ==== Sys2Proof/Certificates/Slice0/Obligations.lean ====
section
/-! DEFINITION. The statements for the provers. Each docstring names the rules a statement formalises. Words such as
`DpDone`, `LoadDone`, `Entered` say, in Sys2Proof.Safety, what a completion leaves unchanged. -/

open Sys2Proof Sys2Proof.Machine

/-! ### Encoding -/

/-- No bit of an encoding is dropped: a well-formed instruction, with every operand at every value, is what its own word
is decoded to (30_encoding.md R142, R177). -/
def Obligations.EncodeThenDecode : Prop := ∀ i : Instr, i.wf = true → decode (encode i) = .ok i

/-- Every word that is decoded is the word of the instruction it is decoded to, and that instruction is well formed:
no two words share an instruction, and no should-be-zero field is forgotten (30_encoding.md R142, R161, R177). -/
def Obligations.DecodeThenEncode : Prop :=
  ∀ (w : Word) (i : Instr), decode w = .ok i → i.wf = true ∧ encode i = w

/-- Words written out in the spec's examples are decoded to the instructions the spec names (42_data_processing.md R214,
R215; 43_psr_transfer.md R252; 45_single_data_transfer.md; 47_block_data_transfer.md R344; 41_branch.md R192;
48_swap_swi_imb.md R371, R380; 49_coprocessor_undefined.md R391). -/
def Obligations.WrittenWordsDecode : Prop :=
  decode 0xE21100FF#32 = .ok (.andImm .al true 1#4 0#4 { rotate := 0#4, imm8 := 0xFF#8 }) ∧
  decode 0xE0233204#32 = .ok (.eorReg .al false 3#4 3#4 { amount := 4#5, type := .lsl, rm := 4#4 }) ∧
  decode 0xE1910332#32 = .ok (.orrRsr .al true 1#4 0#4 { rs := 3#4, type := .lsr, rm := 2#4 }) ∧
  decode 0xE169F000#32 = .ok (.msrReg .al true 9#4 0#4) ∧
  decode 0xE1D100B2#32 = .ok (.ldrhImm .al { p := true, u := true, w := false } 1#4 0#4 2#8) ∧
  decode 0xE51E0004#32 = .ok (.ldrImm .al { p := true, u := false, w := false } 14#4 0#4 4#12) ∧
  decode 0xE9300006#32 = .ok (.ldm .al { p := true, u := false, s := false, w := true } 0#4 0x0006#16) ∧
  decode 0xEB00003E#32 = .ok (.bl .al 0x3E#24) ∧
  decode 0xE1020091#32 = .ok (.swp .al 2#4 0#4 1#4) ∧
  decode 0xEFF00000#32 = .ok (.imb .al) ∧
  decode 0xEF123456#32 = .ok (.swi .al 0x123456#24) ∧
  decode 0xEE110F10#32 = .ok (.mrc .al 0#3 1#4 0#4 0#3 0#4)

/-- A word with the condition 0b1111 is no instruction; a step that fetches one is refused, or under the parameter
NV_BEHAVIOUR = never-execute does nothing but advance (30_encoding.md R160; the spec's decision D5, log 9). No instruction
has that condition. -/
def Obligations.NeverCondition : Prop :=
  (∀ w : Word, decode w = .error .nvCondition ↔ w.extractLsb' 28 4 = 15#4) ∧
  ∀ (s u : State) (r : Reached),
    s.inputs.reset = false → mappingOpen s s.pc = false → reach .fetch s.privileged 4 s.pc s = .ok r u →
    staleAt u s.pc r.pa = false → (u.mem.readWord (wordCell r.pa)).extractLsb' 28 4 = 15#4 →
    (s.plat.nvNeverExecutes = false → step s = .refused .nvCondition) ∧
    (s.plat.nvNeverExecutes = true → s.pc ≠ 0xFFFFFFFC#32 →
      step s = endStep (.next ((u.withBankHazard false).withPc (s.pc + 4#32))))

/-! ### Registers -/

/-- Which physical register a number names: R0 to R7 are one copy for every mode, R8 to R12 have a second in FIQ mode, R13
and R14 one in each mode but that System shares User's; two numbers never share a register; R15 is none of them and reads
as the instruction's address plus 8 (10_state.md R23 to R25, R31). -/
def Obligations.RegisterBanks : Prop :=
  (∀ (m k : Mode) (n : Reg),
    (n.toNat < 8 → m.bank n = k.bank n) ∧
    (8 ≤ n.toNat → n.toNat ≤ 12 → (m.bank n = k.bank n ↔ (m = .fiq ↔ k = .fiq))) ∧
    (n = 13#4 ∨ n = 14#4 →
      (m.bank n = k.bank n ↔ m = k ∨ (m = .usr ∨ m = .sys) ∧ (k = .usr ∨ k = .sys))) ∧
    (m.bank n = none ↔ n = 15#4)) ∧
  (∀ (m k : Mode) (n o : Reg), n ≠ o → m.bank n = k.bank o → m.bank n = none) ∧
  ∀ s : State, wordAligned s.pc = s.pc → s.readReg 15#4 = s.pc + 8#32

/-! ### Conditions -/

/-- The fifteen conditions over the flags, as 40_condition_field.md R181 tabulates them. -/
def Obligations.ConditionTable : Prop :=
  ∀ fl : Flags,
    (fl.pass .eq = true ↔ fl.z = true) ∧ (fl.pass .ne = true ↔ fl.z = false) ∧
    (fl.pass .cs = true ↔ fl.c = true) ∧ (fl.pass .cc = true ↔ fl.c = false) ∧
    (fl.pass .mi = true ↔ fl.n = true) ∧ (fl.pass .pl = true ↔ fl.n = false) ∧
    (fl.pass .vs = true ↔ fl.v = true) ∧ (fl.pass .vc = true ↔ fl.v = false) ∧
    (fl.pass .hi = true ↔ fl.c = true ∧ fl.z = false) ∧ (fl.pass .ls = true ↔ fl.c = false ∨ fl.z = true) ∧
    (fl.pass .ge = true ↔ fl.n = fl.v) ∧ (fl.pass .lt = true ↔ fl.n ≠ fl.v) ∧
    (fl.pass .gt = true ↔ fl.z = false ∧ fl.n = fl.v) ∧ (fl.pass .le = true ↔ fl.z = true ∨ fl.n ≠ fl.v) ∧
    fl.pass .al = true

/-- An instruction whose condition fails, whichever it is, changes nothing and goes on at `pc + 4`: no register, no flag,
no memory, no exception (40_condition_field.md R180). At 0xFFFFFFFC it has no successor and is refused (10_state.md R34;
log 29). -/
def Obligations.CancelledOnlyAdvances : Prop :=
  ∀ (i : Instr) (s : State), s.cpsr.flags.pass i.cond = false →
    (s.pc ≠ 0xFFFFFFFC#32 → exec i s = .next (s.withPc (s.pc + 4#32))) ∧
    (s.pc = 0xFFFFFFFC#32 → exec i s = .refused .noSuccessor)

/-! ### Data processing -/

/-- The sixteen operations, each over the integers or bit by bit. An arithmetic operation gives the exact result modulo
2^32; its C is the exact unsigned sum not fitting, or for a subtraction no borrow; its V is the exact signed result not
fitting (42_data_processing.md R212, R216 to R221, R224, R225). A logical operation acts on each bit, takes C from the
shifter and leaves V (R212, R214, R215, R222, R223, R226 to R229). Every operation falls under one of the two clauses. -/
def Obligations.AluIsExact : Prop :=
  ∀ (op : DpOp) (a : Word) (sh : ShifterOut) (old : Flags),
    ((alu op a sh old).flags.n = (alu op a sh old).result.getLsbD 31 ∧
      (alu op a sh old).flags.z = decide ((alu op a sh old).result = 0#32)) ∧
    (∀ u v, op.exact a.toNat sh.op2.toNat old.c = some u → op.exact a.toInt sh.op2.toInt old.c = some v →
      (alu op a sh old).result = BitVec.ofInt 32 u ∧
      (alu op a sh old).flags.c = (if op.subtracts then decide (0 ≤ u) else decide (2 ^ 32 ≤ u)) ∧
      (alu op a sh old).flags.v = decide (v < -(2 ^ 31) ∨ 2 ^ 31 ≤ v)) ∧
    (op.exact 0 0 old.c = none →
      (∀ i, i < 32 →
        op.bitwise (a.getLsbD i) (sh.op2.getLsbD i) = some ((alu op a sh old).result.getLsbD i)) ∧
      (alu op a sh old).flags.c = sh.carry ∧ (alu op a sh old).flags.v = old.v)

/-- The rotated immediate, bit by bit, and its shifter carry (42_data_processing.md R204). -/
def Obligations.RotatedImmediate : Prop :=
  ∀ (op : RotatedImm) (c : Bool),
    (∀ i, i < 32 → (immOperand op c).op2.getLsbD i = op.imm8.getLsbD ((i + 2 * op.rotate.toNat) % 32)) ∧
    (immOperand op c).carry = (if op.rotate = 0#4 then c else (immOperand op c).op2.getLsbD 31)

/-- A register shifted by an immediate amount: the operand as a product, a quotient or a rotation, and the bit shifted
out, with the four encodings of amount 0 (42_data_processing.md R206). -/
def Obligations.ShiftByImmediate : Prop :=
  ∀ (amount : BitVec 5) (rm : Reg) (s : State), ∀ v n c, v = s.readReg rm → n = amount.toNat → c = s.cpsr.flags.c →
    (∀ r, r = shiftedOperand { amount := amount, type := .lsl, rm := rm } s →
      (n = 0 → r.op2 = v ∧ r.carry = c) ∧
      (0 < n → r.op2.toNat = v.toNat * 2 ^ n % 2 ^ 32 ∧ r.carry = v.getLsbD (32 - n))) ∧
    (∀ r, r = shiftedOperand { amount := amount, type := .lsr, rm := rm } s →
      (n = 0 → r.op2 = 0#32 ∧ r.carry = v.getLsbD 31) ∧
      (0 < n → r.op2.toNat = v.toNat / 2 ^ n ∧ r.carry = v.getLsbD (n - 1))) ∧
    (∀ r, r = shiftedOperand { amount := amount, type := .asr, rm := rm } s →
      (n = 0 → (∀ i, i < 32 → r.op2.getLsbD i = v.getLsbD 31) ∧ r.carry = v.getLsbD 31) ∧
      (0 < n → r.op2.toInt = v.toInt / 2 ^ n ∧ r.carry = v.getLsbD (n - 1))) ∧
    (∀ r, r = shiftedOperand { amount := amount, type := .ror, rm := rm } s →
      (n = 0 → r.op2.getLsbD 31 = c ∧ (∀ i, i < 31 → r.op2.getLsbD i = v.getLsbD (i + 1)) ∧ r.carry = v.getLsbD 0) ∧
      (0 < n → (∀ i, i < 32 → r.op2.getLsbD i = v.getLsbD ((i + n) % 32)) ∧ r.carry = v.getLsbD (n - 1)))

/-- A register shifted by the bottom byte of a register, amounts 0 to 255 (42_data_processing.md R207). -/
def Obligations.ShiftByRegister : Prop :=
  ∀ (rs rm : Reg) (s : State), ∀ v n c, v = s.readReg rm → n = (s.readReg rs).toNat % 256 → c = s.cpsr.flags.c →
    (n = 0 → ∀ type, regShiftedOperand { rs := rs, type := type, rm := rm } s = { op2 := v, carry := c }) ∧
    (∀ r, r = regShiftedOperand { rs := rs, type := .lsl, rm := rm } s →
      (0 < n → n < 32 → r.op2.toNat = v.toNat * 2 ^ n % 2 ^ 32 ∧ r.carry = v.getLsbD (32 - n)) ∧
      (n = 32 → r.op2 = 0#32 ∧ r.carry = v.getLsbD 0) ∧ (32 < n → r.op2 = 0#32 ∧ r.carry = false)) ∧
    (∀ r, r = regShiftedOperand { rs := rs, type := .lsr, rm := rm } s →
      (0 < n → n < 32 → r.op2.toNat = v.toNat / 2 ^ n ∧ r.carry = v.getLsbD (n - 1)) ∧
      (n = 32 → r.op2 = 0#32 ∧ r.carry = v.getLsbD 31) ∧ (32 < n → r.op2 = 0#32 ∧ r.carry = false)) ∧
    (∀ r, r = regShiftedOperand { rs := rs, type := .asr, rm := rm } s →
      (0 < n → n < 32 → r.op2.toInt = v.toInt / 2 ^ n ∧ r.carry = v.getLsbD (n - 1)) ∧
      (32 ≤ n → (∀ i, i < 32 → r.op2.getLsbD i = v.getLsbD 31) ∧ r.carry = v.getLsbD 31)) ∧
    (∀ r, r = regShiftedOperand { rs := rs, type := .ror, rm := rm } s →
      (0 < n → n % 32 = 0 → r.op2 = v ∧ r.carry = v.getLsbD 31) ∧
      (0 < n % 32 → (∀ i, i < 32 → r.op2.getLsbD i = v.getLsbD ((i + n) % 32)) ∧ r.carry = v.getLsbD (n % 32 - 1)))

/-- Each of the sixteen data-processing instructions with an immediate completes: AND EOR SUB RSB ADD ADC SBC RSC ORR MOV
BIC MVN write Rd (other than R15), TST TEQ CMP CMN none; the flags change with S only, or always for those four; nothing
else changes (42_data_processing.md R200, R204, R212). At 0xFFFFFFFC it has no successor and is refused (10_state.md R34;
log 29). -/
def Obligations.DataImmediateResult : Prop :=
  ∀ (op : DpOp) (c : Cond) (sf : Bool) (rn rd : Reg) (imm : RotatedImm) (s : State),
    s.cpsr.flags.pass c = true → (op.compares = true ∨ rd ≠ 15#4) →
    (s.pc ≠ 0xFFFFFFFC#32 → ∃ t, exec (immInstr op c sf rn rd imm) s = .next t ∧
      DpDone op sf rd (alu op (s.readReg rn) (immOperand imm s.cpsr.flags.c) s.cpsr.flags) s t) ∧
    (s.pc = 0xFFFFFFFC#32 → exec (immInstr op c sf rn rd imm) s = .refused .noSuccessor)

/-- The same for the sixteen instructions with a register shifted by an immediate amount (42_data_processing.md R200,
R206, R210, R212; 10_state.md R34, log 29). -/
def Obligations.DataRegisterResult : Prop :=
  ∀ (op : DpOp) (c : Cond) (sf : Bool) (rn rd : Reg) (sh : ShiftedReg) (s : State),
    s.cpsr.flags.pass c = true → (op.compares = true ∨ rd ≠ 15#4) →
    (s.pc ≠ 0xFFFFFFFC#32 → ∃ t, exec (regInstr op c sf rn rd sh) s = .next t ∧
      DpDone op sf rd (alu op (s.readReg rn) (shiftedOperand sh s) s.cpsr.flags) s t) ∧
    (s.pc = 0xFFFFFFFC#32 → exec (regInstr op c sf rn rd sh) s = .refused .noSuccessor)

/-- The same for the sixteen instructions with a register shifted by a register, none of their registers R15
(42_data_processing.md R200, R207, R211, R212; 10_state.md R34, log 29). -/
def Obligations.DataRegisterShiftResult : Prop :=
  ∀ (op : DpOp) (c : Cond) (sf : Bool) (rn rd : Reg) (sh : RegShiftedReg) (s : State),
    s.cpsr.flags.pass c = true → rn ≠ 15#4 → rd ≠ 15#4 → sh.rs ≠ 15#4 → sh.rm ≠ 15#4 →
    (s.pc ≠ 0xFFFFFFFC#32 → ∃ t, exec (rsrInstr op c sf rn rd sh) s = .next t ∧
      DpDone op sf rd (alu op (s.readReg rn) (regShiftedOperand sh s) s.cpsr.flags) s t) ∧
    (s.pc = 0xFFFFFFFC#32 → exec (rsrInstr op c sf rn rd sh) s = .refused .noSuccessor)

/-- A result written to R15 is a branch; with S it is an exception return: the CPSR becomes the SPSR of the current
mode, whole, in the same step, and the flags of the operation are not written; in a mode without an SPSR, or with mode
bits in it that are no mode, it is refused (42_data_processing.md R213; 10_state.md R45, R49). Both forms that may
name R15. The two refusals are the spec's decision D7 (log 25) and the dropped low bits of the result its decision D25
(log 27), both DESIGN CHOICES. -/
def Obligations.DataWritesPc : Prop :=
  ∀ (op : DpOp) (c : Cond) (sf : Bool) (rn : Reg) (s : State) (i : Instr) (sh : ShifterOut),
    op.compares = false → s.cpsr.flags.pass c = true →
    ((∃ imm, i = immInstr op c sf rn 15#4 imm ∧ sh = immOperand imm s.cpsr.flags.c) ∨
      (∃ x, i = regInstr op c sf rn 15#4 x ∧ sh = shiftedOperand x s)) →
    ∀ result, result = (alu op (s.readReg rn) sh s.cpsr.flags).result →
      (sf = false → exec i s = .next (s.withPc (wordAligned result))) ∧
      (sf = true → s.spsrNow = none → exec i s = .refused .noSpsr) ∧
      (sf = true → ∀ p, s.spsrNow = some p →
        (∀ m, Mode.ofBits p.m = some m → exec i s = .next ((s.withCpsr
          { flags := p.flags, i := p.i, f := p.f, mode := m }).withPc (wordAligned result))) ∧
        (Mode.ofBits p.m = none → exec i s = .refused .badMode))

/-- The operand combinations that the spec calls UNPREDICTABLE stop by name, in every mode, when the condition holds
(42_data_processing.md R211; 44_multiply.md R271; 45_single_data_transfer.md R293; 46_halfword_signed_transfer.md R323;
47_block_data_transfer.md R342; 48_swap_swi_imb.md R370). Those of the single and halfword transfers are listed beside
`singleOk` and `halfOk`, where `wb` says that the base is written back: always in a T form, else post-indexed or with W.
That they are refused is the spec's decision D14, for the wrap D20 (log 25, log 28, DESIGN CHOICES). -/
def Obligations.ForbiddenOperandsStop : Prop :=
  ∀ (c : Cond) (s : State), s.cpsr.flags.pass c = true →
    (∀ sf rn rd sh, (rn = 15#4 ∨ rd = 15#4 ∨ sh.rs = 15#4 ∨ sh.rm = 15#4) →
      ∀ op ∈ [DpOp.and, .eor, .sub, .rsb, .add, .adc, .sbc, .rsc, .orr, .bic],
        exec (rsrInstr op c sf rn rd sh) s = .refused .r15WithRegisterShift) ∧
    (∀ sf rn rd sh, (rd = 15#4 ∨ sh.rs = 15#4 ∨ sh.rm = 15#4) → ∀ op ∈ [DpOp.mov, .mvn],
      exec (rsrInstr op c sf rn rd sh) s = .refused .r15WithRegisterShift) ∧
    (∀ sf rn rd sh, (rn = 15#4 ∨ sh.rs = 15#4 ∨ sh.rm = 15#4) → ∀ op ∈ [DpOp.tst, .teq, .cmp, .cmn],
      exec (rsrInstr op c sf rn rd sh) s = .refused .r15WithRegisterShift) ∧
    (∀ sf rd rs rm, (rd = 15#4 ∨ rs = 15#4 ∨ rm = 15#4 ∨ rd = rm) →
      exec (.mul c sf rd rs rm) s = .refused .multiplyOperands) ∧
    (∀ sf rd rn rs rm, (rd = 15#4 ∨ rn = 15#4 ∨ rs = 15#4 ∨ rm = 15#4 ∨ rd = rm) →
      exec (.mla c sf rd rn rs rm) s = .refused .multiplyOperands) ∧
    (∀ sf hi lo rs rm,
      (hi = 15#4 ∨ lo = 15#4 ∨ rs = 15#4 ∨ rm = 15#4 ∨ hi = lo ∨ hi = rm ∨ lo = rm) →
      exec (.umull c sf hi lo rs rm) s = .refused .multiplyOperands ∧
      exec (.umlal c sf hi lo rs rm) s = .refused .multiplyOperands ∧
      exec (.smull c sf hi lo rs rm) s = .refused .multiplyOperands ∧
      exec (.smlal c sf hi lo rs rm) s = .refused .multiplyOperands) ∧
    (∀ (k : SingleKind) (o : SingleOffset) (ix : Indexing) (rn rd : Reg) (wb : Prop),
      (wb ↔ k.translate = true ∨ ix.p = false ∨ ix.w = true) →
      (singleOk k o ix rn rd = false ↔
        (wb ∧ (rn = 15#4 ∨ rd = rn)) ∨ (∃ x, o = .reg x ∧ (x.rm = 15#4 ∨ (wb ∧ x.rm = rn))) ∨
          (rd = 15#4 ∧ k ≠ .ldr ∧ k ≠ .str)) ∧
      (singleOk k o ix rn rd = false → exec (singleInstr k o c ix rn rd) s = .refused .transferOperands)) ∧
    (∀ (k : HalfKind) (o : HalfOffset) (ix : Indexing) (rn rd : Reg) (wb : Prop),
      (wb ↔ ix.p = false ∨ ix.w = true) →
      (halfOk o ix rn rd = false ↔
        (ix.p = false ∧ ix.w = true) ∨ (wb ∧ (rn = 15#4 ∨ rd = rn)) ∨
          (∃ rm, o = .reg rm ∧ (rm = 15#4 ∨ (wb ∧ rm = rn))) ∨ rd = 15#4) ∧
      (halfOk o ix rn rd = false → exec (halfInstr k o c ix rn rd) s = .refused .halfwordOperands)) ∧
    (∀ rn rd rm, (rn = 15#4 ∨ rd = 15#4 ∨ rm = 15#4 ∨ rn = rd ∨ rn = rm) →
      exec (.swp c rn rd rm) s = .refused .swapOperands ∧ exec (.swpb c rn rd rm) s = .refused .swapOperands) ∧
    (∀ bm rn list, (list = 0#16 ∨ rn = 15#4 ∨ (bm.w = true ∧ inList list rn = true) ∨
        (bm.s = true ∧ bm.w = true ∧ inList list 15#4 = false)) →
      exec (.ldm c bm rn list) s = .refused .blockOperands) ∧
    (∀ bm rn list, (list = 0#16 ∨ rn = 15#4 ∨ (bm.s = true ∧ bm.w = true) ∨
        (bm.w = true ∧ inList list rn = true ∧ ∃ r, r < rn ∧ inList list r = true)) →
      exec (.stm c bm rn list) s = .refused .blockOperands) ∧
    (∀ bm rn list, bm.s = true → (s.cpsr.mode = .usr ∨ s.cpsr.mode = .sys) →
      (loadBlockOk bm rn list = true → exec (.ldm c bm rn list) s = .refused .userBlockMode) ∧
      (storeBlockOk bm rn list = true → exec (.stm c bm rn list) s = .refused .userBlockMode)) ∧
    (∀ bm rn list, blockModeOk bm s.cpsr.mode = true →
      2 ^ 32 < (wordAligned (blockStart bm (s.readReg rn) list)).toNat + 4 * (regsOf list).length →
      (loadBlockOk bm rn list = true → exec (.ldm c bm rn list) s = .refused .transferWraps) ∧
      (storeBlockOk bm rn list = true → exec (.stm c bm rn list) s = .refused .transferWraps))

/-! ### Status registers -/

/-- MRS reads N Z C V, I, F and M of the CPSR or of the current mode's SPSR at their places and changes nothing else;
without an SPSR, or with Rd = 15, it is refused (43_psr_transfer.md R251; 10_state.md R41, R49): DESIGN CHOICES of the
spec's decisions D7, D14 (log 25). Nothing is said of the reserved bits. -/
def Obligations.MrsReads : Prop :=
  ∀ (c : Cond) (spsr : Bool) (rd : Reg) (s : State), Runs c s →
    (rd = 15#4 → exec (.mrs c spsr rd) s = .refused .r15Operand) ∧
    (rd ≠ 15#4 → spsr = true → s.spsrNow = none → exec (.mrs c spsr rd) s = .refused .noSpsr) ∧
    (rd ≠ 15#4 → ∀ p : Spsr, (spsr = false ∧ p = s.cpsr.saved ∨ spsr = true ∧ s.spsrNow = some p) →
      ∃ t, exec (.mrs c spsr rd) s = .next t ∧ FlagsAre p.flags (t.readReg rd) ∧
        (t.readReg rd).getLsbD 7 = p.i ∧ (t.readReg rd).getLsbD 6 = p.f ∧ (t.readReg rd).extractLsb' 0 5 = p.m ∧
        t.pc = s.pc + 4#32 ∧ RegsKept [rd] s t ∧ t.cpsr.flags = s.cpsr.flags ∧ AllKept s t)

/-- MSR to the CPSR, both forms: the flags with the field f; I, F and M with the field c, in a privileged mode only
(in User mode that field is ignored); a value that is no mode is refused, and so is R15 as the operand of an MSR to the
CPSR or to an SPSR (43_psr_transfer.md R252 to R255; 10_state.md R45): DESIGN CHOICES of the spec's decisions D7, D14
(log 25). -/
def Obligations.MsrCpsr : Prop :=
  ∀ (c : Cond) (mask : BitVec 4) (i : Instr) (v : Word) (s : State), Runs c s →
    (∀ spsr, exec (.msrReg c spsr mask 15#4) s = .refused .r15Operand) ∧
    (MsrOperand c false mask i v s →
     ((mask.getLsbD 0 = false ∨ s.cpsr.mode = .usr ∨ ∃ m, Mode.ofBits (v.extractLsb' 0 5) = some m) →
      ∃ t, exec i s = .next t ∧
        (mask.getLsbD 3 = true → FlagsAre t.cpsr.flags v) ∧ (mask.getLsbD 3 = false → t.cpsr.flags = s.cpsr.flags) ∧
        (mask.getLsbD 0 = true ∧ s.cpsr.mode ≠ .usr →
          t.cpsr.i = v.getLsbD 7 ∧ t.cpsr.f = v.getLsbD 6 ∧ t.cpsr.mode.bits = v.extractLsb' 0 5) ∧
        (mask.getLsbD 0 = false ∨ s.cpsr.mode = .usr →
          t.cpsr.i = s.cpsr.i ∧ t.cpsr.f = s.cpsr.f ∧ t.cpsr.mode = s.cpsr.mode) ∧
        t.pc = s.pc + 4#32 ∧ RegsKept [] s t ∧ t.spsr = s.spsr ∧ t.cp15 = s.cp15 ∧ OtherKept s t ∧ MemKept s t) ∧
     (mask.getLsbD 0 = true → s.cpsr.mode ≠ .usr → Mode.ofBits (v.extractLsb' 0 5) = none →
      exec i s = .refused .badMode))

/-- MSR to the SPSR, both forms: the flags with the field f; I, F and the mode bits as written with the field c; the
other SPSRs, the CPSR and everything else unchanged; without an SPSR it is refused (43_psr_transfer.md R254;
10_state.md R49): the spec's decision D7 (log 25). -/
def Obligations.MsrSpsr : Prop :=
  ∀ (c : Cond) (mask : BitVec 4) (i : Instr) (v : Word) (s : State), Runs c s → MsrOperand c true mask i v s →
    (s.spsrNow = none → exec i s = .refused .noSpsr) ∧
    (∀ p, s.spsrNow = some p →
      ∃ t q, exec i s = .next t ∧ t.spsr.get s.cpsr.mode = some q ∧
        (mask.getLsbD 3 = true → FlagsAre q.flags v) ∧ (mask.getLsbD 3 = false → q.flags = p.flags) ∧
        (mask.getLsbD 0 = true → q.i = v.getLsbD 7 ∧ q.f = v.getLsbD 6 ∧ q.m = v.extractLsb' 0 5) ∧
        (mask.getLsbD 0 = false → q.i = p.i ∧ q.f = p.f ∧ q.m = p.m) ∧
        (∀ m, m ≠ s.cpsr.mode → t.spsr.get m = s.spsr.get m) ∧
        t.pc = s.pc + 4#32 ∧ RegsKept [] s t ∧ t.cpsr = s.cpsr ∧ t.cp15 = s.cp15 ∧ OtherKept s t ∧ MemKept s t)

/-! ### Multiply -/

/-- MUL and MLA complete with the exact product (and sum) modulo 2^32 (44_multiply.md R272 to R274). -/
def Obligations.MultiplyResult : Prop :=
  ∀ (c : Cond) (sf : Bool) (rd rn rs rm : Reg) (s : State),
    Runs c s → rd ≠ 15#4 → rs ≠ 15#4 → rm ≠ 15#4 → rd ≠ rm →
    (∃ t, exec (.mul c sf rd rs rm) s = .next t ∧
      MulDone sf rd (BitVec.ofNat 32 ((s.readReg rm).toNat * (s.readReg rs).toNat)) s t) ∧
    (rn ≠ 15#4 → ∃ t, exec (.mla c sf rd rn rs rm) s = .next t ∧
      MulDone sf rd
        (BitVec.ofNat 32 ((s.readReg rm).toNat * (s.readReg rs).toNat + (s.readReg rn).toNat)) s t)

/-- UMULL, UMLAL, SMULL and SMLAL complete with the exact unsigned or signed product, and sum with the accumulator
RdHi:RdLo, modulo 2^64 (44_multiply.md R272, R275 to R278). -/
def Obligations.LongMultiplyResult : Prop :=
  ∀ (c : Cond) (sf : Bool) (rdHi rdLo rs rm : Reg) (s : State), Runs c s →
    rdHi ≠ 15#4 → rdLo ≠ 15#4 → rs ≠ 15#4 → rm ≠ 15#4 → rdHi ≠ rdLo → rdHi ≠ rm → rdLo ≠ rm →
    ∀ (a b : Word) (acc : BitVec 64), a = s.readReg rm → b = s.readReg rs → acc = s.readReg rdHi ++ s.readReg rdLo →
      (∃ t, exec (.umull c sf rdHi rdLo rs rm) s = .next t ∧
        MulLongDone sf rdHi rdLo (BitVec.ofInt 64 (a.toNat * b.toNat)) s t) ∧
      (∃ t, exec (.umlal c sf rdHi rdLo rs rm) s = .next t ∧
        MulLongDone sf rdHi rdLo (BitVec.ofInt 64 (a.toNat * b.toNat + acc.toNat)) s t) ∧
      (∃ t, exec (.smull c sf rdHi rdLo rs rm) s = .next t ∧
        MulLongDone sf rdHi rdLo (BitVec.ofInt 64 (a.toInt * b.toInt)) s t) ∧
      (∃ t, exec (.smlal c sf rdHi rdLo rs rm) s = .next t ∧
        MulLongDone sf rdHi rdLo (BitVec.ofInt 64 (a.toInt * b.toInt + acc.toInt)) s t)

/-! ### Accesses -/

/-- The byte order: byte `k` of the word at `a` is bits `8k + 7` to `8k` of it when little-endian and bits `31 - 8k` to
`24 - 8k` when big-endian; a half-word is its two bytes, the byte at the lower address the less significant when
little-endian, the more significant when big-endian (20_memory.md R82 to R84, R86). That the bit B selects lanes and moves
no word is the spec's decision D1 (log 21). -/
def Obligations.ByteOrder : Prop :=
  ∀ (m : Memory) (a : Word), wordAligned a = a →
    (∀ k, k < 4 →
      m.read (byteCell false (a + BitVec.ofNat 32 k)) = (m.readWord (wordCell a)).extractLsb' (8 * k) 8 ∧
      m.read (byteCell true (a + BitVec.ofNat 32 k)) = (m.readWord (wordCell a)).extractLsb' (24 - 8 * k) 8) ∧
    (∀ h, h = a ∨ h = a + 2#32 →
      m.readHalf (halfCell false h) = m.read (byteCell false (h + 1#32)) ++ m.read (byteCell false h) ∧
      m.readHalf (halfCell true h) = m.read (byteCell true h) ++ m.read (byteCell true (h + 1#32)))

/-- With the MMU off an access goes to its own address: aborted where the memory system aborts it, stopped where nothing
stands or a device does, else made (20_memory.md R90 to R92, R101). That an access to a device stops is the model's choice
(log 41, DESIGN CHOICE: 20_memory.md R97 says only that the platform marks device regions); that one to an address
outside the map stops is the spec's decision D12; that an abort has no status to record with the MMU off is DEDUCED
(log 40). -/
def Obligations.AccessWithMmuOff : Prop :=
  ∀ (kind : AccessKind) (priv : Bool) (n : Nat) (a : Word) (s : State), s.cp15.control.m = false →
    (s.aborted a n kind = true → reach kind priv n a s = .abort none s) ∧
    (s.aborted a n kind = false →
      (s.kindAt a n = none → reach kind priv n a s = .stuck .unmapped) ∧
      (s.kindAt a n = some .device → reach kind priv n a s = .refused .deviceAccess) ∧
      (s.kindAt a n = some .rom → reach kind priv n a s = .ok { pa := a, rom := true } s) ∧
      (s.kindAt a n = some .ram → reach kind priv n a s = .ok { pa := a, rom := false } s))

/-- With the MMU on an access goes where its translation leads, under the domain and the permissions, sections and pages
alike (`AccessChecked`). A cached translation is used as it was cached (10_state.md R78). Else the tables are walked: a
section descriptor maps the section's base with the low 20 bits of the address, a large page the low 16 bits, a small page
the low 12, a page's permission is that of the sub-page; an invalid descriptor is a translation fault, an aborted table
read an external abort on translation, a reserved descriptor is refused (20_memory.md R102 to R106, R108; 10_state.md R64,
R65). The formats are PRESUMED (log 18). That the TLB keeps the descriptors of a walk, behind those it holds, on a
faulting access too, is the model's choice (log 19, DESIGN CHOICE); so are, all DESIGN CHOICES, that bits that should be
zero or one are ignored (log 48), that an entry of a large page maps it whole (log 49), that an access to a device region
is refused (log 41), and which external aborts can be those of a cache line fetch (log 14). The first two clauses spell
out the table of R104 (that its reserved row is refused is the spec's) and the domain's two bits of c3. -/
def Obligations.AddressTranslation : Prop :=
  (∀ (ap : BitVec 2) (ctl : Control) (priv write : Bool),
    (ap = 0b00#2 →
      (ctl.s = false → ctl.r = false → permits ap ctl priv write = some false) ∧
      (ctl.s = true → ctl.r = false → permits ap ctl priv write = some (decide (priv = true ∧ write = false))) ∧
      (ctl.s = false → ctl.r = true → permits ap ctl priv write = some (decide (write = false))) ∧
      (ctl.s = true → ctl.r = true → permits ap ctl priv write = none)) ∧
    (ap = 0b01#2 → permits ap ctl priv write = some (decide (priv = true))) ∧
    (ap = 0b10#2 → permits ap ctl priv write = some (decide (priv = true ∨ write = false))) ∧
    (ap = 0b11#2 → permits ap ctl priv write = some true)) ∧
  (∀ (dac : Word) (d : BitVec 4) (j : Nat), j < 2 →
    (domainAccess dac d).getLsbD j = dac.getLsbD (2 * d.toNat + j)) ∧
  ∀ (kind : AccessKind) (priv : Bool) (n : Nat) (va : Word) (s : State), s.cp15.control.m = true →
    (∀ e, s.tlb.find? (fun x => x.covers va) = some e →
      AccessChecked kind priv n va (e.physical va) (e.ap va) (e.l1.extractLsb' 5 4) e.page s s) ∧
    ((∀ e ∈ s.tlb, e.covers va = false) → ∀ table, table = s.cp15.ttb ++ va.extractLsb' 20 12 ++ 0#2 →
      (s.aborted table 4 .read = true →
        ∃ d, reach kind priv n va s = .abort (some { status := 0b1100#4, domain := d }) s.drawn) ∧
      (∀ l1 dom, TableHolds table l1 s → dom = l1.extractLsb' 5 4 →
        (l1.extractLsb' 0 2 = 0#2 →
          ∃ d, reach kind priv n va s = .abort (some { status := 0b0101#4, domain := d }) s.drawn) ∧
        (l1.extractLsb' 0 2 = 3#2 → reach kind priv n va s = .refused .reservedDescriptor) ∧
        (l1.extractLsb' 0 2 = 2#2 →
          AccessChecked kind priv n va (l1.extractLsb' 20 12 ++ va.extractLsb' 0 20) (l1.extractLsb' 10 2) dom false s
            (s.withTlb (s.tlb ++ [{ size := .sectionMap, va := va, l1 := l1, l2 := 0#32 }]))) ∧
        (l1.extractLsb' 0 2 = 1#2 → ∀ page, page = l1.extractLsb' 10 22 ++ va.extractLsb' 12 8 ++ 0#2 →
          (s.aborted page 4 .read = true →
            reach kind priv n va s = .abort (some { status := 0b1110#4, domain := dom }) s) ∧
          (∀ l2, TableHolds page l2 s →
            (l2.extractLsb' 0 2 = 0#2 →
              reach kind priv n va s = .abort (some { status := 0b0111#4, domain := dom }) s) ∧
            (l2.extractLsb' 0 2 = 3#2 → reach kind priv n va s = .refused .reservedDescriptor) ∧
            (∀ ap : BitVec 2, l2.extractLsb' 0 2 = 1#2 →
              (∀ j, j < 2 → ap.getLsbD j = l2.getLsbD (4 + 2 * (va.extractLsb' 14 2).toNat + j)) →
              AccessChecked kind priv n va (l2.extractLsb' 16 16 ++ va.extractLsb' 0 16) ap dom true s
                (s.withTlb (s.tlb ++ [{ size := .large, va := va, l1 := l1, l2 := l2 }]))) ∧
            (∀ ap : BitVec 2, l2.extractLsb' 0 2 = 2#2 →
              (∀ j, j < 2 → ap.getLsbD j = l2.getLsbD (4 + 2 * (va.extractLsb' 10 2).toNat + j)) →
              AccessChecked kind priv n va (l2.extractLsb' 12 20 ++ va.extractLsb' 0 12) ap dom true s
                (s.withTlb (s.tlb ++ [{ size := .small, va := va, l1 := l1, l2 := l2 }])))))))

/-! ### Single transfers -/

/-- The addresses of the transfers. A single transfer: the offset is the 12 bits zero-extended, or the register shifted by
an immediate amount (ShiftByImmediate spells `shiftedOperand` out) with its carry discarded; the base plus or minus it (U) is
the address when pre-indexed and what is written back; post-indexed the address is the base; the base is written back when
post-indexed or with W. A T form is post-indexed and always writes back. A halfword transfer likewise, its offset the 8 bits
zero-extended or the register. A block transfer, with `n` the number of registers in the list: the address of the lowest
register and the written-back base for IA, IB, DA and DB (45_single_data_transfer.md R291, R292, R304;
46_halfword_signed_transfer.md R320, R322; 47_block_data_transfer.md R341). -/
def Obligations.TransferAddresses : Prop :=
  (∀ (k : SingleKind) (o : SingleOffset) (ix : Indexing) (rn : Reg) (s : State) (base off : Word), base = s.readReg rn →
    ((∃ x : BitVec 12, o = .imm x ∧ off = BitVec.ofNat 32 x.toNat) ∨
      (∃ x : ShiftedReg, o = .reg x ∧ off = (shiftedOperand x s).op2)) →
    (ix.u = true → singleBase k o ix rn s = base + off) ∧ (ix.u = false → singleBase k o ix rn s = base - off) ∧
    (k = .ldr ∨ k = .str ∨ k = .ldrb ∨ k = .strb →
      (ix.p = true → ix.u = true → singleAddr k o ix rn s = base + off) ∧
      (ix.p = true → ix.u = false → singleAddr k o ix rn s = base - off) ∧
      (ix.p = false → singleAddr k o ix rn s = base) ∧
      (writesBack (k.indexing ix) = true ↔ ix.p = false ∨ ix.w = true)) ∧
    (k = .ldrt ∨ k = .strt ∨ k = .ldrbt ∨ k = .strbt →
      singleAddr k o ix rn s = base ∧ writesBack (k.indexing ix) = true)) ∧
  (∀ (o : HalfOffset) (ix : Indexing) (rn : Reg) (s : State) (base off : Word), base = s.readReg rn →
    ((∃ x : BitVec 8, o = .imm x ∧ off = BitVec.ofNat 32 x.toNat) ∨ (∃ rm : Reg, o = .reg rm ∧ off = s.readReg rm)) →
    (ix.u = true → halfBase o ix rn s = base + off) ∧ (ix.u = false → halfBase o ix rn s = base - off) ∧
    (ix.p = true → ix.u = true → halfAddr o ix rn s = base + off) ∧
    (ix.p = true → ix.u = false → halfAddr o ix rn s = base - off) ∧
    (ix.p = false → halfAddr o ix rn s = base) ∧
    (writesBack ix = true ↔ ix.p = false ∨ ix.w = true)) ∧
  ∀ (sBit wBit : Bool) (base : Word) (list : BitVec 16) (n : Nat),
    n = ((List.range 16).filter fun k => list.getLsbD k).length →
    ((blockStart ⟨false, true, sBit, wBit⟩ base list = base ∧
        blockWritten ⟨false, true, sBit, wBit⟩ base list = base + BitVec.ofNat 32 (4 * n)) ∧
      (blockStart ⟨true, true, sBit, wBit⟩ base list = base + 4#32 ∧
        blockWritten ⟨true, true, sBit, wBit⟩ base list = base + BitVec.ofNat 32 (4 * n)) ∧
      (blockStart ⟨false, false, sBit, wBit⟩ base list = base - BitVec.ofNat 32 (4 * n) + 4#32 ∧
        blockWritten ⟨false, false, sBit, wBit⟩ base list = base - BitVec.ofNat 32 (4 * n)) ∧
      (blockStart ⟨true, false, sBit, wBit⟩ base list = base - BitVec.ofNat 32 (4 * n) ∧
        blockWritten ⟨true, false, sBit, wBit⟩ base list = base - BitVec.ofNat 32 (4 * n)))

/-- LDR and LDRT, each with an immediate and a register offset, complete with the word at the aligned address rotated
right by 8 times the low address bits; the base is written back where the addressing asks for it; nothing else changes
(45_single_data_transfer.md R292, R295, R296, R302, R304). -/
def Obligations.WordLoad : Prop :=
  ∀ (k : SingleKind) (o : SingleOffset) (c : Cond) (ix : Indexing) (rn rd : Reg) (s u : State) (r : Reached),
    (k = .ldr ∨ k = .ldrt) → Runs c s → singleOk k o ix rn rd = true → rd ≠ 15#4 →
    ∀ a, a = singleAddr k o ix rn s → (s.cp15.control.a = true → a.extractLsb' 0 2 = 0#2) →
      reach .read (k.priv s) 4 (wordAligned a) s = .ok r u →
      ∃ t, exec (singleInstr k o c ix rn rd) s = .next t ∧
        LoadDone (k.indexing ix) rn rd (singleBase k o ix rn s)
          ((s.mem.readWord (wordCell r.pa)).rotateRight (8 * (a.extractLsb' 0 2).toNat)) s t

/-- LDRB and LDRBT, each with an immediate and a register offset, complete with the byte zero-extended
(45_single_data_transfer.md R292, R297, R302, R304). -/
def Obligations.ByteLoad : Prop :=
  ∀ (k : SingleKind) (o : SingleOffset) (c : Cond) (ix : Indexing) (rn rd : Reg) (s u : State) (r : Reached),
    (k = .ldrb ∨ k = .ldrbt) → Runs c s → singleOk k o ix rn rd = true →
    reach .read (k.priv s) 1 (singleAddr k o ix rn s) s = .ok r u →
    ∃ t, exec (singleInstr k o c ix rn rd) s = .next t ∧
      LoadDone (k.indexing ix) rn rd (singleBase k o ix rn s)
        ((s.mem.read (byteCell s.cp15.control.b r.pa)).setWidth 32) s t

/-- With memory in its canonical form (an invariant: InvKept), STR and STRT, each with an immediate and a register offset,
complete: the word at the aligned address holds Rd as it was at the start (for R15 the address of the instruction plus
PC_STORE_OFFSET), every other byte is as before; ROM keeps its bytes; the word then awaits a barrier, and no other that did
not (45_single_data_transfer.md R292, R298, R300, R302, R304; 20_memory.md R91, R114). That a store of R15 to a misaligned
address is made, alignment checking off, where the words of 70_reset_and_hazards.md R504 refuse it, is the model's choice
(log 26, DEDUCED); that the word awaits it from every address (log 22), and the mapping of before with it where the word is
one of the tables (log 50), are DESIGN CHOICES. -/
def Obligations.WordStore : Prop :=
  ∀ (k : SingleKind) (o : SingleOffset) (c : Cond) (ix : Indexing) (rn rd : Reg) (s u : State) (r : Reached),
    (k = .str ∨ k = .strt) → s.mem.wf = true → Runs c s → singleOk k o ix rn rd = true →
    ∀ a, a = singleAddr k o ix rn s → (s.cp15.control.a = true → a.extractLsb' 0 2 = 0#2) →
      reach .write (k.priv s) 4 (wordAligned a) s = .ok r u →
      ∃ t, exec (singleInstr k o c ix rn rd) s = .next t ∧
        StoreDone (k.indexing ix) rn (singleBase k o ix rn s) (wordCell r.pa) 4 u r s t ∧
        (r.rom = false → rd ≠ 15#4 → t.mem.readWord (wordCell r.pa) = s.readReg rd) ∧
        (r.rom = false → rd = 15#4 → t.mem.readWord (wordCell r.pa) = s.storedPc)

/-- With memory canonical, STRB and STRBT, each with an immediate and a register offset, complete: the byte holds bits
7:0 of Rd, every other byte is as before; its word then awaits a barrier (45_single_data_transfer.md R292, R301, R302,
R304; 20_memory.md R91, R114; from every address, and the mapping too: log 22, log 50, DESIGN CHOICES). -/
def Obligations.ByteStore : Prop :=
  ∀ (k : SingleKind) (o : SingleOffset) (c : Cond) (ix : Indexing) (rn rd : Reg) (s u : State) (r : Reached),
    (k = .strb ∨ k = .strbt) → s.mem.wf = true → Runs c s → singleOk k o ix rn rd = true →
    reach .write (k.priv s) 1 (singleAddr k o ix rn s) s = .ok r u →
    ∃ t, exec (singleInstr k o c ix rn rd) s = .next t ∧
      StoreDone (k.indexing ix) rn (singleBase k o ix rn s) (byteCell s.cp15.control.b r.pa) 1 u r s t ∧
      (r.rom = false →
        t.mem.read (byteCell s.cp15.control.b r.pa) = (s.readReg rd).extractLsb' 0 8)

/-- LDR of R15 from an aligned address is a branch to the loaded word, the CPSR unchanged; a loaded word whose bits
1:0 are not zero is refused, and so is a misaligned address with alignment checking off (45_single_data_transfer.md
R299): the spec's decisions D25, D2 (log 27, log 26). -/
def Obligations.LoadPc : Prop :=
  ∀ (o : SingleOffset) (c : Cond) (ix : Indexing) (rn : Reg) (s u : State) (r : Reached),
    s.cpsr.flags.pass c = true → singleOk .ldr o ix rn 15#4 = true →
    ∀ a i, a = singleAddr .ldr o ix rn s → i = singleInstr .ldr o c ix rn 15#4 →
      (s.cp15.control.a = false → a.extractLsb' 0 2 ≠ 0#2 → exec i s = .refused .misalignedPcLoad) ∧
      (a.extractLsb' 0 2 = 0#2 → reach .read s.privileged 4 (wordAligned a) s = .ok r u →
        ∀ v, v = s.mem.readWord (wordCell r.pa) →
          (v.extractLsb' 0 2 ≠ 0#2 → exec i s = .refused .pcLowBits) ∧
          (v.extractLsb' 0 2 = 0#2 → ∃ t, exec i s = .next t ∧ t.pc = v ∧
            (writesBack ix = true → t.readReg rn = singleBase .ldr o ix rn s) ∧
            RegsKept (if writesBack ix then [rn] else []) s t ∧ t.cpsr = s.cpsr ∧ RestKept s t ∧ MemKept s t))

/-- An aborted access of a single, halfword or swap transfer: a Data Abort with the address of the instruction plus 8 in
R14_abt, the fault recorded where the MMU raised it, with the address of the access; no other register and no byte of
memory changes (45_single_data_transfer.md R302, R303; 46_halfword_signed_transfer.md R329; 48_swap_swi_imb.md R371;
60_exceptions.md R435). For a swap it is the read that aborts, or the write after a read that was done. A misaligned word
access with alignment checking off is made, and aborts, at the aligned address; the address recorded keeps its low
bits, which is DEDUCED (log 39). That it is so for a store of R15 too, which the words of 70_reset_and_hazards.md R504
refuse, is the model's choice (log 26, DEDUCED); that an abort with the MMU off leaves FSR and FAR alone is DEDUCED
(log 40). -/
def Obligations.TransferAborts : Prop :=
  ∀ (c : Cond) (rn rd : Reg) (s u : State) (f : Option FaultStatus), s.cpsr.flags.pass c = true →
    (∀ k o ix i a, i = singleInstr k o c ix rn rd → a = singleAddr k o ix rn s → singleOk k o ix rn rd = true →
      (k.byte = false → a.extractLsb' 0 2 ≠ 0#2 → s.cp15.control.a = false ∧ (k.load = true → rd ≠ 15#4)) →
      reach (if k.load then .read else .write) (k.priv s) (if k.byte then 1 else 4)
        (if k.byte then a else wordAligned a) s = .abort f u →
      ∃ t, exec i s = .next t ∧ AbortTaken f a s t ∧ MemKept s t) ∧
    (∀ k o ix i a, i = halfInstr k o c ix rn rd → a = halfAddr o ix rn s → halfOk o ix rn rd = true →
      (k = .ldrsb ∨ a.getLsbD 0 = false) →
      reach (if k = .strh then .write else .read) s.privileged (if k = .ldrsb then 1 else 2) a s = .abort f u →
      ∃ t, exec i s = .next t ∧ AbortTaken f a s t ∧ MemKept s t) ∧
    (∀ rm a, swapOk rn rd rm = true → a = s.readReg rn →
      ((a.extractLsb' 0 2 ≠ 0#2 → s.cp15.control.a = false) →
        (reach .lockedRead s.privileged 4 (wordAligned a) s = .abort f u ∨
          ∃ r v, reach .lockedRead s.privileged 4 (wordAligned a) s = .ok r v ∧
            reach .write s.privileged 4 (wordAligned a) v = .abort f u) →
        ∃ t, exec (.swp c rn rd rm) s = .next t ∧ AbortTaken f a s t ∧ MemKept s t) ∧
      ((reach .lockedRead s.privileged 1 a s = .abort f u ∨
          ∃ r v, reach .lockedRead s.privileged 1 a s = .ok r v ∧ reach .write s.privileged 1 a v = .abort f u) →
        ∃ t, exec (.swpb c rn rd rm) s = .next t ∧ AbortTaken f a s t ∧ MemKept s t))

/-- With alignment checking on, a word access of LDR, STR, LDRT, STRT or SWP to an address that is no multiple of 4, a
half-word access to an odd address, and an LDM or STM with a base that is no multiple of 4, is a Data Abort before
anything is transferred: no register, no byte of memory changes; the status is an alignment fault's and the address
the access's (20_memory.md R89, R105, R106; 47_block_data_transfer.md R341). The address recorded is DEDUCED (log 39), and
so is that status and address are recorded with the MMU off too (log 40); the status is PRESUMED with the other formats
(log 18). With alignment checking off a half-word access to an odd address is refused (46_halfword_signed_transfer.md R323
e): the spec's decision D2 (log 26). -/
def Obligations.MisalignedAccesses : Prop :=
  (∀ (c : Cond) (rn rd rm : Reg) (s : State) (i : Instr) (far : Word),
    s.cpsr.flags.pass c = true → s.cp15.control.a = true →
    ((∃ k o ix, i = singleInstr k o c ix rn rd ∧ k.byte = false ∧ singleOk k o ix rn rd = true ∧
        far = singleAddr k o ix rn s ∧ far.extractLsb' 0 2 ≠ 0#2) ∨
      (∃ k o ix, i = halfInstr k o c ix rn rd ∧ k ≠ .ldrsb ∧ halfOk o ix rn rd = true ∧
        far = halfAddr o ix rn s ∧ far.getLsbD 0 = true) ∨
      (i = .swp c rn rd rm ∧ swapOk rn rd rm = true ∧ far = s.readReg rn ∧ far.extractLsb' 0 2 ≠ 0#2) ∨
      (∃ bm list, (i = .ldm c bm rn list ∧ loadBlockOk bm rn list = true ∨
          i = .stm c bm rn list ∧ storeBlockOk bm rn list = true) ∧
        blockModeOk bm s.cpsr.mode = true ∧ far = blockStart bm (s.readReg rn) list ∧ blockFits far list = true ∧
        (s.readReg rn).extractLsb' 0 2 ≠ 0#2)) →
    ∃ t x, exec i s = .next t ∧ AbortTaken (some x) far s t ∧ t.tlb = s.tlb ∧
      x.status.extractLsb' 2 2 = 0#2 ∧ x.status.getLsbD 0 = true ∧ MemKept s t) ∧
  (∀ (k : HalfKind) (o : HalfOffset) (c : Cond) (ix : Indexing) (rn rd : Reg) (s : State),
    k ≠ .ldrsb → s.cpsr.flags.pass c = true → halfOk o ix rn rd = true → s.cp15.control.a = false →
    (halfAddr o ix rn s).getLsbD 0 = true → exec (halfInstr k o c ix rn rd) s = .refused .misalignedHalfword)

/-! ### Halfword transfers and swap -/

/-- LDRH, LDRSB and LDRSH, each with an immediate and a register offset, complete with the half-word zero-extended,
the byte sign-extended, the half-word sign-extended (46_halfword_signed_transfer.md R322, R325, R327, R328). -/
def Obligations.HalfwordLoad : Prop :=
  ∀ (o : HalfOffset) (c : Cond) (ix : Indexing) (rn rd : Reg) (s u : State) (r : Reached),
    Runs c s → halfOk o ix rn rd = true → ∀ a, a = halfAddr o ix rn s →
    (a.getLsbD 0 = false → reach .read s.privileged 2 a s = .ok r u →
      ∀ v, v = s.mem.readHalf (halfCell s.cp15.control.b r.pa) →
        (∃ t, exec (halfInstr .ldrh o c ix rn rd) s = .next t ∧
          LoadDone ix rn rd (halfBase o ix rn s) (BitVec.ofNat 32 v.toNat) s t) ∧
        (∃ t, exec (halfInstr .ldrsh o c ix rn rd) s = .next t ∧
          LoadDone ix rn rd (halfBase o ix rn s) (BitVec.ofInt 32 v.toInt) s t)) ∧
    (reach .read s.privileged 1 a s = .ok r u →
      ∃ t, exec (halfInstr .ldrsb o c ix rn rd) s = .next t ∧
        LoadDone ix rn rd (halfBase o ix rn s)
          (BitVec.ofInt 32 (s.mem.read (byteCell s.cp15.control.b r.pa)).toInt) s t)

/-- With memory canonical, STRH, with an immediate and a register offset, completes: the half-word holds bits 15:0 of
Rd, every other byte is as before; its word then awaits a barrier (46_halfword_signed_transfer.md R322, R326; 20_memory.md
R91, R114; from every address, and the mapping too: log 22, log 50, DESIGN CHOICES). -/
def Obligations.HalfwordStore : Prop :=
  ∀ (o : HalfOffset) (c : Cond) (ix : Indexing) (rn rd : Reg) (s u : State) (r : Reached),
    s.mem.wf = true → Runs c s → halfOk o ix rn rd = true →
    ∀ a, a = halfAddr o ix rn s → a.getLsbD 0 = false → reach .write s.privileged 2 a s = .ok r u →
      ∃ t, exec (halfInstr .strh o c ix rn rd) s = .next t ∧
        StoreDone ix rn (halfBase o ix rn s) (halfCell s.cp15.control.b r.pa) 2 u r s t ∧
        (r.rom = false →
          t.mem.readHalf (halfCell s.cp15.control.b r.pa) = (s.readReg rd).extractLsb' 0 16)

/-- With memory canonical, SWP and SWPB complete in one step: Rd receives what memory held, memory what Rm held at the
start; every other byte and every other register is as before; the word written then awaits a barrier, and no other that did
not (48_swap_swi_imb.md R371; 20_memory.md R114; from every address, and the mapping too: log 22, log 50, DESIGN CHOICES).
-/
def Obligations.SwapResult : Prop :=
  ∀ (c : Cond) (rn rd rm : Reg) (s u v : State) (r q : Reached),
    s.mem.wf = true → Runs c s → swapOk rn rd rm = true → ∀ a, a = s.readReg rn →
    ((s.cp15.control.a = true → a.extractLsb' 0 2 = 0#2) →
      reach .lockedRead s.privileged 4 (wordAligned a) s = .ok r u →
      reach .write s.privileged 4 (wordAligned a) u = .ok q v →
      ∃ t, exec (.swp c rn rd rm) s = .next t ∧
        t.readReg rd = (s.mem.readWord (wordCell r.pa)).rotateRight (8 * (a.extractLsb' 0 2).toNat) ∧
        (q.rom = false → t.mem.readWord (wordCell q.pa) = s.readReg rm) ∧ (q.rom = true → MemKept s t) ∧
        SameOutside (wordCell q.pa) 4 s t ∧ t.pc = s.pc + 4#32 ∧ RegsKept [rd] s t ∧
        t.cpsr.flags = s.cpsr.flags ∧ RestKept s (t.withOldMaps s.oldMaps) ∧ Awaits v q s t) ∧
    (reach .lockedRead s.privileged 1 a s = .ok r u → reach .write s.privileged 1 a u = .ok q v →
      ∃ t, exec (.swpb c rn rd rm) s = .next t ∧
        t.readReg rd = (s.mem.read (byteCell s.cp15.control.b r.pa)).setWidth 32 ∧
        (q.rom = false →
          t.mem.read (byteCell s.cp15.control.b q.pa) = (s.readReg rm).extractLsb' 0 8) ∧
        (q.rom = true → MemKept s t) ∧ SameOutside (byteCell s.cp15.control.b q.pa) 1 s t ∧
        t.pc = s.pc + 4#32 ∧ RegsKept [rd] s t ∧ t.cpsr.flags = s.cpsr.flags ∧
        RestKept s (t.withOldMaps s.oldMaps) ∧ Awaits v q s t)

/-! ### Block transfers -/

/-- LDM without R15 completes: each register of the list, in the current mode's bank or with S in User's, receives the
word read for it; the base is written back with W; the registers read are those of the list in ascending order;
nothing else changes, but that with S the hazard of the next instruction begins (47_block_data_transfer.md R341, R344,
R350; 70_reset_and_hazards.md R506). -/
def Obligations.LoadMultiple : Prop :=
  ∀ (c : Cond) (bm : BlockMode) (rn : Reg) (list : BitVec 16) (s u : State) (vs : List Loaded) (start : Word),
    Runs c s → loadBlockOk bm rn list = true → blockModeOk bm s.cpsr.mode = true → inList list 15#4 = false →
    start = blockStart bm (s.readReg rn) list → blockFits start list = true →
    (s.cp15.control.a = true → (s.readReg rn).extractLsb' 0 2 = 0#2) →
    readBlock (regsOf list) start s = .done vs u →
    ∃ t, exec (.ldm c bm rn list) s = .next t ∧ vs.map (·.reg) = regsOf list ∧
      (∀ x ∈ vs, t.readRegOf (if bm.s then .usr else s.cpsr.mode) x.reg = x.value) ∧
      (bm.w = true → t.readReg rn = blockWritten bm (s.readReg rn) list) ∧
      (∀ p, (∀ r ∈ regsOf list, (if bm.s then Mode.usr else s.cpsr.mode).bank r ≠ some p) →
        (bm.w = true → s.cpsr.mode.bank rn ≠ some p) → t.regs.get p = s.regs.get p) ∧
      t.bankHazard = bm.s ∧ t.pc = s.pc + 4#32 ∧ t.cpsr.flags = s.cpsr.flags ∧ ControlKept s t ∧ OutsideKept s t ∧
      MemKept s t

/-- LDM with R15 completes as a branch to the last word read: without S the CPSR is unchanged; with S it becomes the
SPSR of the current mode in the same step. The other registers are loaded into the current mode's bank. A word whose
bits 1:0 are not zero is refused, and so is a misaligned base with alignment checking off, and with S an SPSR whose mode
bits are no mode (47_block_data_transfer.md R344, R348, R349; 10_state.md R45): the spec's decisions D25, D2 with U33, D7
(log 27, log 26, log 25). -/
def Obligations.LoadMultiplePc : Prop :=
  ∀ (c : Cond) (bm : BlockMode) (rn : Reg) (list : BitVec 16) (s u : State) (vs : List Loaded) (v start : Word),
    s.cpsr.flags.pass c = true → loadBlockOk bm rn list = true → blockModeOk bm s.cpsr.mode = true →
    inList list 15#4 = true → start = blockStart bm (s.readReg rn) list → blockFits start list = true →
    (s.cp15.control.a = false → (s.readReg rn).extractLsb' 0 2 ≠ 0#2 →
      exec (.ldm c bm rn list) s = .refused .misalignedPcLoad) ∧
    ((s.readReg rn).extractLsb' 0 2 = 0#2 →
      readBlock (regsOf list) start s = .done (vs ++ [{ reg := 15#4, value := v }]) u →
      (v.extractLsb' 0 2 ≠ 0#2 → exec (.ldm c bm rn list) s = .refused .pcLowBits) ∧
      (v.extractLsb' 0 2 = 0#2 → bm.s = true → ∀ p, s.spsrNow = some p → Mode.ofBits p.m = none →
        exec (.ldm c bm rn list) s = .refused .badMode) ∧
      (v.extractLsb' 0 2 = 0#2 → ∀ cpsr : Cpsr,
        (bm.s = false ∧ cpsr = s.cpsr ∨ bm.s = true ∧ ∃ p, s.spsrNow = some p ∧ p.restored = some cpsr) →
        ∃ t, exec (.ldm c bm rn list) s = .next t ∧ t.pc = v ∧ t.cpsr = cpsr ∧
          (∀ x ∈ vs, ∀ p, s.cpsr.mode.bank x.reg = some p → t.regs.get p = x.value) ∧
          (bm.w = true → ∀ p, s.cpsr.mode.bank rn = some p →
            t.regs.get p = blockWritten bm (s.readReg rn) list) ∧
          RegsKept (if bm.w then rn :: regsOf list else regsOf list) s t ∧
          t.spsr = s.spsr ∧ t.cp15 = s.cp15 ∧ t.bankHazard = s.bankHazard ∧ OutsideKept s t ∧ MemKept s t))

/-- The words an LDM reads with the MMU off: the register number `k` of the list, ascending, from `start + 4k` with
the low address bits ignored, whatever the direction bits (47_block_data_transfer.md R341). -/
def Obligations.LoadMultipleAddresses : Prop :=
  ∀ (list : BitVec 16) (start : Word) (s : State), s.cp15.control.m = false →
    (∀ k, k < (regsOf list).length → ∀ a, a = wordAligned start + BitVec.ofNat 32 (4 * k) →
      s.aborted a 4 .read = false ∧ (s.kindAt a 4 = some .ram ∨ s.kindAt a 4 = some .rom)) →
    ∃ vs, readBlock (regsOf list) start s = .done vs s ∧ vs.map (·.reg) = regsOf list ∧
      ∀ (k : Nat) (x : Loaded), vs[k]? = some x →
        x.value = s.mem.readWord (wordCell (wordAligned start + BitVec.ofNat 32 (4 * k)))

/-- An LDM whose transfer aborts takes the Data Abort: the base register holds what it held, R15 is not loaded, each
register of the completed transfers holds its old value or the loaded one, every other register its old value; no byte
of memory changes (47_block_data_transfer.md R353, with the spec's decision D19, log 13; 60_exceptions.md R435). R14_abt is
the entry's own. The aborting transfer is the one after the completed ones, at `start + 4k` with the low address bits
ignored; that its address is the one recorded is DEDUCED (log 39). A misaligned base with alignment checking on aborts
before any transfer (MisalignedAccesses), and with it off is refused where R15 is in the list (LoadMultiplePc). -/
def Obligations.LoadMultipleAbort : Prop :=
  ∀ (c : Cond) (bm : BlockMode) (rn : Reg) (list : BitVec 16) (s u : State) (vs : List Loaded) (far start : Word)
    (f : Option FaultStatus),
    s.cpsr.flags.pass c = true → loadBlockOk bm rn list = true → blockModeOk bm s.cpsr.mode = true →
    start = blockStart bm (s.readReg rn) list → blockFits start list = true →
    (s.cp15.control.a = true ∨ inList list 15#4 = true → (s.readReg rn).extractLsb' 0 2 = 0#2) →
    readBlock (regsOf list) start s = .aborted vs far f u →
    ∃ t, exec (.ldm c bm rn list) s = .next t ∧
      t.pc = 0x10#32 ∧ t.regs.r14Abt = s.pc + 8#32 ∧ t.spsr = { s.spsr with abt := s.cpsr.saved } ∧
      t.cpsr = { s.cpsr with i := true, mode := .abt } ∧
      far = wordAligned start + BitVec.ofNat 32 (4 * vs.length) ∧ FaultNoted f far s t ∧
      t.bankHazard = s.bankHazard ∧ OutsideKept s t ∧ MemKept s t ∧
      (∀ p, s.cpsr.mode.bank rn = some p → p ≠ .r14Abt → t.regs.get p = s.regs.get p) ∧
      (∀ p, p ≠ .r14Abt → t.regs.get p = s.regs.get p ∨
        ∃ x ∈ vs, (blockBank true bm list s.cpsr.mode).bank x.reg = some p ∧ t.regs.get p = x.value)

/-- STM completes: memory, and the words and mappings that await a barrier, are what the writes of its words left (which
those are: StoreMultipleAddresses); the base is written back with W; nothing else changes (47_block_data_transfer.md R341,
R346, R351). The values are those at the start, R15 as PC_STORE_OFFSET says, with S the User bank's. That an STM with R15
from a misaligned base completes, alignment checking off, where the words of 70_reset_and_hazards.md R504 refuse it, is the
model's choice (log 26, DEDUCED). -/
def Obligations.StoreMultiple : Prop :=
  ∀ (c : Cond) (bm : BlockMode) (rn : Reg) (list : BitVec 16) (s u : State) (start : Word) (values : List Word),
    Runs c s → storeBlockOk bm rn list = true → blockModeOk bm s.cpsr.mode = true →
    start = blockStart bm (s.readReg rn) list → blockFits start list = true →
    (s.cp15.control.a = true → (s.readReg rn).extractLsb' 0 2 = 0#2) →
    values = (regsOf list).map (fun r => if r = 15#4 then s.storedPc else
      s.readRegOf (if bm.s then .usr else s.cpsr.mode) r) →
    writeBlock values start s = .done () u →
    ∃ t, exec (.stm c bm rn list) s = .next t ∧ t.mem = u.mem ∧ t.stale = u.stale ∧
      (bm.w = true → t.readReg rn = blockWritten bm (s.readReg rn) list) ∧
      t.pc = s.pc + 4#32 ∧ RegsKept (if bm.w then [rn] else []) s t ∧ t.cpsr.flags = s.cpsr.flags ∧
      t.oldMaps = u.oldMaps ∧ RestKept s (t.withOldMaps s.oldMaps)

/-- The words an STM writes with the MMU off into RAM, memory canonical: value number `k` at `start + 4k` with the low
address bits ignored; every byte outside those words is as before. Those words await a barrier, and no other word does that
did not (47_block_data_transfer.md R341, R346; 20_memory.md R114). That they await it from whatever address they are
fetched, a word being named by its physical address, is the model's choice (log 22, DESIGN CHOICE). -/
def Obligations.StoreMultipleAddresses : Prop :=
  ∀ (values : List Word) (start : Word) (s : State), s.mem.wf = true → s.cp15.control.m = false →
    (wordAligned start).toNat + 4 * values.length ≤ 2 ^ 32 →
    (∀ k, k < values.length → ∀ a, a = wordAligned start + BitVec.ofNat 32 (4 * k) →
      s.aborted a 4 .write = false ∧ s.kindAt a 4 = some .ram) →
    ∃ u, writeBlock values start s = .done () u ∧
      (∀ k v, values[k]? = some v → u.mem.readWord ((wordAligned start).toNat + 4 * k) = v) ∧
      SameOutside (wordAligned start).toNat (4 * values.length) s u ∧
      (∀ k va, k < values.length → staleAt u va (wordAligned start + BitVec.ofNat 32 (4 * k)) = true) ∧
      (∀ va pa, (∀ k, k < values.length → pa ≠ wordAligned start + BitVec.ofNat 32 (4 * k)) →
        staleAt u va pa = staleAt s va pa) ∧
      u.oldMaps = s.oldMaps

/-- An STM whose transfer aborts takes the Data Abort: every register is as before, the base included. Where the aborting
transfer is the last one, and with the MMU off wherever it is, memory is what the stores before it left, but for the words
of the transfers after it, of which nothing is said (47_block_data_transfer.md R341, R354, with the spec's decision D19,
log 13; 60_exceptions.md R435). The address recorded is that of the aborting transfer, the low bits of a misaligned base
ignored: DEDUCED (log 39). That an STM with R15 is run from a misaligned base, where the words of 70_reset_and_hazards.md
R504 refuse it, is the model's choice (log 26, DEDUCED). -/
def Obligations.StoreMultipleAbort : Prop :=
  ∀ (c : Cond) (bm : BlockMode) (rn : Reg) (list : BitVec 16) (s u v : State) (start w : Word)
    (before after : List Word) (f : Option FaultStatus),
    s.cpsr.flags.pass c = true → storeBlockOk bm rn list = true → blockModeOk bm s.cpsr.mode = true →
    start = blockStart bm (s.readReg rn) list → blockFits start list = true →
    (s.cp15.control.a = true → (s.readReg rn).extractLsb' 0 2 = 0#2) →
    storedValues bm list s = before ++ w :: after → writeBlock before start s = .done () u →
    ∀ a, a = wordAligned start + BitVec.ofNat 32 (4 * before.length) →
    reach .write s.privileged 4 a u = .abort f v →
    ∃ t, exec (.stm c bm rn list) s = .next t ∧ AbortTaken f a s (t.withOldMaps s.oldMaps) ∧
      (after = [] → t.mem = u.mem ∧ t.stale = u.stale ∧ t.oldMaps = u.oldMaps) ∧
      (s.cp15.control.m = false → t.oldMaps = s.oldMaps ∧
        SameOutside ((wordAligned start).toNat + 4 * (before.length + 1)) (4 * after.length) u t)

/-! ### Branches, software interrupts, barriers -/

/-- B and BL: the next instruction is at the address plus 8 plus four times the signed offset, over the integers; BL
leaves the address of the instruction after it in R14 of the current mode; nothing else changes (41_branch.md R191,
R192). A target outside 0 to 0xFFFFFFFC is refused: the spec's decision D20 (log 28, DESIGN CHOICE). -/
def Obligations.Branches : Prop :=
  ∀ (c : Cond) (off : BitVec 24) (s : State), s.cpsr.flags.pass c = true → wordAligned s.pc = s.pc →
    ∀ target : Int, target = s.pc.toNat + 8 + 4 * off.toInt →
    ((target < 0 ∨ 0xFFFFFFFC < target) →
      exec (.b c off) s = .refused .branchWraps ∧ exec (.bl c off) s = .refused .branchWraps) ∧
    (0 ≤ target → target ≤ 0xFFFFFFFC →
      (∃ t, exec (.b c off) s = .next t ∧ (t.pc.toNat : Int) = target ∧
        RegsKept [] s t ∧ t.cpsr = s.cpsr ∧ AllKept s t) ∧
      (∃ t, exec (.bl c off) s = .next t ∧ (t.pc.toNat : Int) = target ∧ t.readReg 14#4 = s.pc + 4#32 ∧
        RegsKept [14#4] s t ∧ t.cpsr = s.cpsr ∧ AllKept s t))

/-- SWI, IMB and IMBRange enter the software interrupt with the address of the next instruction in R14_svc; no byte of
memory changes (48_swap_swi_imb.md R375; 60_exceptions.md R436). SWI leaves the words that await a barrier; after IMB none
does; after IMBRange those that did, fetched from an address that no byte of R0 to R1 meets (48_swap_swi_imb.md R380 to
R382). That the barriers act at the SWI itself is the spec's decision D9 (log 30, DESIGN CHOICE); the mappings on record,
which they cover likewise, are the model's (log 50); and so is that a word which IMBRange leaves or not is judged by the
address it is fetched from, and not removed from the set as R382 and D9 say (log 22, DESIGN CHOICE). -/
def Obligations.SoftwareInterrupts : Prop :=
  ∀ (c : Cond) (comment : BitVec 24) (s : State), s.cpsr.flags.pass c = true →
    (∃ t, exec (.swi c comment) s = .next t ∧ Entered .swi (s.pc + 4#32) s t ∧ t.cp15 = s.cp15 ∧ OtherKept s t ∧
      MemKept s t) ∧
    (∃ t, exec (.imb c) s = .next t ∧ Entered .swi (s.pc + 4#32) s t ∧ t.cp15 = s.cp15 ∧
      OtherKept s (t.withOldMaps s.oldMaps) ∧ (∀ va pa, staleAt t va pa = false) ∧ t.oldMaps = [] ∧
      ∀ a, t.mem.read a = s.mem.read a) ∧
    (∃ t, exec (.imbRange c) s = .next t ∧ Entered .swi (s.pc + 4#32) s t ∧ t.cp15 = s.cp15 ∧
      OtherKept s (t.withOldMaps s.oldMaps) ∧
      (∀ va pa, staleAt t va pa = true ↔ staleAt s va pa = true ∧
        ¬ ((s.readReg 0#4).toNat ≤ va.toNat + 3 ∧ va.toNat ≤ (s.readReg 1#4).toNat)) ∧
      t.oldMaps = s.oldMaps.map (fun o =>
        { o with covered := { first := s.readReg 0#4, last := s.readReg 1#4 } :: o.covered }) ∧
      ∀ a, t.mem.read a = s.mem.read a)

/-- A word written since the last covering barrier is not executed: a word, half-word or byte store into RAM puts its
word among those that await one, from whatever address it is fetched, and a step that fetches such a word stops
(20_memory.md R114, the spec's decision D9, log 22). A store that changes where any fetch goes puts the mapping of before
on record. After a change of the mapping (that store; an MCR to c1 that turns the MMU on or off, one to c2 or c8 with the
MMU on: McrWrites) a step stops that fetches from an address whose instructions the change has moved, until a barrier
covers that address (48_swap_swi_imb.md R383; 70_reset_and_hazards.md R505): that it stops is the model's choice (log 50,
DESIGN CHOICE). -/
def Obligations.UnbarrieredWordStops : Prop :=
  (∀ (priv : Bool) (a : Word) (s u : State) (r : Reached) (n : Nat), r.rom = false →
    reach .write priv n (if n = 4 then wordAligned a else a) s = .ok r u →
    ∀ x : Access Unit,
      (n = 4 ∧ (∃ v, x = storeWord priv a v s) ∨ n = 2 ∧ a.getLsbD 0 = false ∧ (∃ v, x = storeHalf priv a v s) ∨
        n = 1 ∧ (∃ v, x = storeByte priv a v s)) →
      ∃ t, x = .ok () t ∧ (∀ va, staleAt t va (wordAligned r.pa) = true) ∧
        (∀ va, fetchTarget t va ≠ fetchTarget u va → t.oldMaps =
          { m := u.cp15.control.m, ttb := u.cp15.ttb, tlb := u.tlb, mem := u.mem, covered := [] } :: u.oldMaps)) ∧
  (∀ (s u : State) (r : Reached), s.inputs.reset = false → mappingOpen s s.pc = false →
    reach .fetch s.privileged 4 s.pc s = .ok r u → staleAt u s.pc r.pa = true →
    step s = .fault .staleInstruction) ∧
  (∀ (s : State) (o : OldMapping), s.inputs.reset = false → o ∈ s.oldMaps →
    (∀ x ∈ o.covered, ¬ (x.first.toNat ≤ s.pc.toNat + 3 ∧ s.pc.toNat ≤ x.last.toNat)) →
    fetchTarget (s.under o) s.pc ≠ fetchTarget s s.pc → step s = .refused .mappingChanged)

/-! ### Coprocessor instructions and traps -/

/-- The undefined instruction, CDP, LDC, STC, and MRC and MCR to a coprocessor other than 15, take the undefined
instruction trap in every mode with the address of the next instruction in R14_und; nothing else changes
(49_coprocessor_undefined.md R398 to R400; 60_exceptions.md R437). That the coprocessor forms trap is the spec's decision
D15. -/
def Obligations.UndefinedTraps : Prop :=
  ∀ (i : Instr) (s : State), trapsAlways i = true → s.cpsr.flags.pass i.cond = true →
    ∃ t, exec i s = .next t ∧ Entered .undefined (s.pc + 4#32) s t ∧ t.cp15 = s.cp15 ∧ OtherKept s t ∧ MemKept s t

/-- In User mode MRC and MCR to CP15 take the undefined instruction trap, and CP15 is unchanged
(49_coprocessor_undefined.md R391, R392, R398): the spec's decision D16. -/
def Obligations.UserCp15Traps : Prop :=
  ∀ (c : Cond) (op1 op2 : BitVec 3) (crn crm : BitVec 4) (rd : Reg) (s : State),
    s.cpsr.flags.pass c = true → s.cpsr.mode = .usr →
    ∀ i, (i = .mrc c op1 crn rd op2 crm ∨ i = .mcr c op1 crn rd op2 crm) →
      ∃ t, exec i s = .next t ∧ Entered .undefined (s.pc + 4#32) s t ∧ t.cp15 = s.cp15 ∧ OtherKept s t ∧ MemKept s t

/-- MRC from CP15 in a privileged mode completes for c0, c1, c2, c3, c5 and c6: Rd receives the register's defined
bits at their places, nothing else changes; with Rd = 15 the flags receive bits 31:28 of the value and the pc moves
on; a register that is write-only or reserved is refused (10_state.md R61 to R67; 49_coprocessor_undefined.md R391,
R396), and so are c9, c10 and c15 (10_state.md R70, R71; log 44). Nothing is said of the reserved bits. That opcode_1, CRm
and opcode_2 do not select is DEDUCED (log 36). -/
def Obligations.MrcReads : Prop :=
  ∀ (c : Cond) (op1 op2 : BitVec 3) (crn crm : BitVec 4) (rd : Reg) (s : State),
    Runs c s → s.cpsr.mode ≠ .usr →
    ((crn.toNat ∈ [0, 1, 2, 3, 5, 6]) → rd ≠ 15#4 →
      ∃ t, exec (.mrc c op1 crn rd op2 crm) s = .next t ∧
        (crn = 0#4 → t.readReg rd = s.plat.cp15Id) ∧
        (crn = 1#4 → controlOf (t.readReg rd) = s.cp15.control) ∧
        (crn = 2#4 → (t.readReg rd).extractLsb' 14 18 = s.cp15.ttb) ∧
        (crn = 3#4 → t.readReg rd = s.cp15.dac) ∧
        (crn = 5#4 → (t.readReg rd).extractLsb' 0 4 = s.cp15.fsrStatus ∧
          (t.readReg rd).extractLsb' 4 4 = s.cp15.fsrDomain ∧ (t.readReg rd).getLsbD 8 = false) ∧
        (crn = 6#4 → t.readReg rd = s.cp15.far) ∧
        t.pc = s.pc + 4#32 ∧ RegsKept [rd] s t ∧ t.cpsr.flags = s.cpsr.flags ∧ AllKept s t) ∧
    ((crn.toNat ∈ [0, 1, 2, 3, 5, 6]) → rd = 15#4 →
      ∃ t, exec (.mrc c op1 crn rd op2 crm) s = .next t ∧
        (crn = 0#4 → FlagsAre t.cpsr.flags s.plat.cp15Id) ∧ (crn = 3#4 → FlagsAre t.cpsr.flags s.cp15.dac) ∧
        (crn = 2#4 → FlagsAre t.cpsr.flags (s.cp15.ttb ++ 0#14)) ∧ (crn = 6#4 → FlagsAre t.cpsr.flags s.cp15.far) ∧
        t.pc = s.pc + 4#32 ∧ RegsKept [] s t ∧ AllKept s t) ∧
    ((crn.toNat ∉ [0, 1, 2, 3, 5, 6]) → exec (.mrc c op1 crn rd op2 crm) s = .refused .cp15Register)

/-- MCR to CP15 in a privileged mode completes: c1, c2, c3, c5 and c6 keep the defined bits of Rd; a cache operation of
CP15_C7_OPS changes nothing; a TLB operation of CP15_C8_OPS drops every cached translation, or those of the address in Rd;
any other register or operation, and R15 as Rd, is refused (10_state.md R61 to R71; 49_coprocessor_undefined.md R392). The
model's choices (DESIGN CHOICE where not said otherwise): that a cache operation changes nothing is the spec's decision D8
(log 23); a write of c1 that sets M or B, which R392 puts outside the default model, is executed (log 20); what an
instruction does to the mappings on record (log 50); that a write of c1 to c3 leaves the TLB alone, and
that a single-entry operation drops every cached translation that covers the address, where R69 speaks of one entry (log
19); that opcode_1, and CRm and opcode_2 outside c7 and c8, do not select is DEDUCED (log 36). -/
def Obligations.McrWrites : Prop :=
  ∀ (c : Cond) (op1 op2 : BitVec 3) (crn crm : BitVec 4) (rd : Reg) (s : State),
    Runs c s → s.cpsr.mode ≠ .usr →
    ∀ i v, i = .mcr c op1 crn rd op2 crm → v = s.readReg rd →
    (rd = 15#4 → exec i s = .refused .r15Operand) ∧
    (rd ≠ 15#4 →
      (crn.toNat ∈ [1, 2, 3, 5, 6] → ∃ t, exec i s = .next t ∧
        t.cp15.control = (if crn = 1#4 then controlOf v else s.cp15.control) ∧
        t.cp15.ttb = (if crn = 2#4 then v.extractLsb' 14 18 else s.cp15.ttb) ∧
        t.cp15.dac = (if crn = 3#4 then v else s.cp15.dac) ∧
        t.cp15.fsrStatus = (if crn = 5#4 then v.extractLsb' 0 4 else s.cp15.fsrStatus) ∧
        t.cp15.fsrDomain = (if crn = 5#4 then v.extractLsb' 4 4 else s.cp15.fsrDomain) ∧
        t.cp15.far = (if crn = 6#4 then v else s.cp15.far) ∧
        t.oldMaps =
          (if crn = 1#4 ∧ v.getLsbD 0 ≠ s.cp15.control.m ∨
              crn = 2#4 ∧ s.cp15.control.m = true ∧ v.extractLsb' 14 18 ≠ s.cp15.ttb then
            { m := s.cp15.control.m, ttb := s.cp15.ttb, tlb := s.tlb, mem := s.mem, covered := [] } :: s.oldMaps
           else s.oldMaps) ∧
        t.cp15.cacheLockdown = s.cp15.cacheLockdown ∧ t.cp15.tlbLockdown = s.cp15.tlbLockdown ∧
        t.cp15.testClock = s.cp15.testClock ∧
        t.pc = s.pc + 4#32 ∧ RegsKept [] s t ∧ t.cpsr = s.cpsr ∧ t.spsr = s.spsr ∧
        OtherKept s (t.withOldMaps s.oldMaps) ∧ MemKept s t) ∧
      (crn = 7#4 →
        ({ crm := crm, op2 := op2 } ∈ s.plat.c7Ops → exec i s = .next (s.withPc (s.pc + 4#32))) ∧
        ({ crm := crm, op2 := op2 } ∉ s.plat.c7Ops → exec i s = .refused .cp15Operation)) ∧
      (crn = 8#4 →
        ((∀ x ∈ s.plat.c8Ops, ¬ (x.crm = crm ∧ x.op2 = op2)) → exec i s = .refused .cp15Operation) ∧
        (∀ x, s.plat.c8Ops.find? (fun y => y.crm == crm && y.op2 == op2) = some x →
          ∃ t, exec i s = .next t ∧ (x.op = .whole → t.tlb = []) ∧
            (x.op = .entry → ∀ e, e ∈ t.tlb ↔ e ∈ s.tlb ∧ e.covers v = false) ∧
            t.oldMaps = (if s.cp15.control.m = true then
              { m := true, ttb := s.cp15.ttb, tlb := s.tlb, mem := s.mem, covered := [] } :: s.oldMaps else s.oldMaps) ∧
            t.pc = s.pc + 4#32 ∧ RegsKept [] s t ∧ t.cpsr = s.cpsr ∧
            RestKept s (t.withOldMaps s.oldMaps) ∧ MemKept s t)) ∧
      (crn.toNat ∉ [1, 2, 3, 5, 6, 7, 8] → exec i s = .refused .cp15Register))

/-! ### Exceptions, interrupts, reset -/

/-- Taking an exception, whichever and from whatever state: R14 and the SPSR of the mode entered, I, F for FIQ only,
the mode and the vector as 60_exceptions.md R430 and R439 say; every other register, every other SPSR, CP15 and memory
unchanged. -/
def Obligations.ExceptionEntry : Prop :=
  (∀ (e : Exc) (ret : Word) (s : State), Entered e ret s (takeException e ret s) ∧
    (takeException e ret s).cp15 = s.cp15 ∧ OtherKept s (takeException e ret s) ∧ MemKept s (takeException e ret s)) ∧
  (Exc.undefined.vector = 0x04#32 ∧ Exc.undefined.mode.bits = 0b11011#5) ∧
  (Exc.swi.vector = 0x08#32 ∧ Exc.swi.mode.bits = 0b10011#5) ∧
  (Exc.prefetchAbort.vector = 0x0C#32 ∧ Exc.prefetchAbort.mode.bits = 0b10111#5) ∧
  (Exc.dataAbort.vector = 0x10#32 ∧ Exc.dataAbort.mode.bits = 0b10111#5) ∧
  (Exc.irq.vector = 0x18#32 ∧ Exc.irq.mode.bits = 0b10010#5) ∧
  (Exc.fiq.vector = 0x1C#32 ∧ Exc.fiq.mode.bits = 0b10001#5)

/-- The normal return from an exception, MOVS PC,R14 or SUBS PC,R14,#4 or #8, executed in the state the entry leaves,
leads back: the whole CPSR as before the entry, every register as before but the R14 the entry wrote, memory as
before, the pc at the return address less the offset of 60_exceptions.md R439 (R465, R466). -/
def Obligations.EntryThenReturn : Prop :=
  ∀ (e : Exc) (ret : Word) (s : State),
    ∃ t, exec e.returnInstr (takeException e ret s) = .next t ∧ t.pc = wordAligned (ret - e.returnOffset) ∧
      t.cpsr = s.cpsr ∧ (∀ p, p ≠ e.mode.bank14 → t.regs.get p = s.regs.get p) ∧
      (∀ m, m ≠ e.mode → t.spsr.get m = s.spsr.get m) ∧ t.cp15 = s.cp15 ∧ OtherKept s t ∧ MemKept s t

/-- At the end of every instruction, a cancelled one too, the levels of the step are looked at under the CPSR the
instruction leaves: an unmasked FIQ is taken, else an unmasked IRQ, else the next instruction follows
(60_exceptions.md R431, R432, R452). An instruction that ended in a Data Abort entry with FIQ unmasked goes on to the
FIQ vector (R461): that both entries are one step is the spec's decision D21 (log 32, DESIGN CHOICE); that the levels are
read from the list of inputs of the state is the model's (log 16, DESIGN CHOICE). -/
def Obligations.InterruptsAtTheEnd : Prop :=
  ∀ s t : State, s.inputs.reset = false → runInstruction s = .next t →
    (s.inputs.fiqLine = true → t.cpsr.f = false →
      ∃ u, step s = .next u ∧ Entered .fiq (t.pc + 4#32) t u ∧ u.cp15 = t.cp15 ∧
        OtherKept t (u.withEnv t.env) ∧ u.env = s.env.tail ∧ MemKept t u) ∧
    ((s.inputs.fiqLine = false ∨ t.cpsr.f = true) → s.inputs.irqLine = true → t.cpsr.i = false →
      ∃ u, step s = .next u ∧ Entered .irq (t.pc + 4#32) t u ∧ u.cp15 = t.cp15 ∧
        OtherKept t (u.withEnv t.env) ∧ u.env = s.env.tail ∧ MemKept t u) ∧
    ((s.inputs.fiqLine = false ∨ t.cpsr.f = true) → (s.inputs.irqLine = false ∨ t.cpsr.i = true) →
      step s = .next (t.withEnv s.env.tail))

/-- An aborted fetch is a Prefetch Abort in place of the instruction, with its address plus 4 in R14_abt; FSR and FAR
are not written (60_exceptions.md R434). That no condition is looked at is the spec's decision D26 (log 31). -/
def Obligations.PrefetchAborts : Prop :=
  ∀ (s u : State) (f : Option FaultStatus),
    s.inputs.reset = false → s.inputs.fiqLine = false → mappingOpen s s.pc = false →
    reach .fetch s.privileged 4 s.pc s = .abort f u →
    ∃ t, step s = .next t ∧ Entered .prefetchAbort (s.pc + 4#32) s t ∧ t.cp15 = s.cp15 ∧
      t.bankHazard = s.bankHazard ∧ OutsideKept s (t.withEnv s.env) ∧ t.env = s.env.tail ∧ MemKept s t

/-- What the spec gives reset: Supervisor mode, I and F set, the pc at 0, the MMU, the cache and the write buffer off,
no word awaiting a barrier; and a reset while running leads there from any state (70_reset_and_hazards.md R490; 10_state.md
R50, R72; 20_memory.md R96). A reset while running abandons the instruction in progress: from a state with the invariant,
each byte of memory is as before, or as that instruction would have left it, its partial effects being unspecified (R490;
60_exceptions.md R421; the form they have in the model is log 15, DESIGN CHOICE). -/
def Obligations.ResetValues : Prop :=
  (State.reset.cpsr.mode = .svc ∧ State.reset.cpsr.i = true ∧ State.reset.cpsr.f = true ∧ State.reset.pc = 0#32 ∧
    State.reset.cp15.control.m = false ∧ State.reset.cp15.control.c = false ∧ State.reset.cp15.control.w = false ∧
    State.reset.stale = []) ∧
  ∀ s : State, s.inputs.reset = true → ∃ t, step s = .next t ∧
    t.cpsr.mode = .svc ∧ t.cpsr.i = true ∧ t.cpsr.f = true ∧ t.pc = 0#32 ∧ t.cp15.control.m = false ∧
    t.cp15.control.c = false ∧ t.cp15.control.w = false ∧ t.stale = [] ∧ t.plat = s.plat ∧ t.env = s.env.tail ∧
    (s.Inv → ∀ a, t.mem.read a = s.mem.read a ∨
      ∃ u, runInstruction s = .next u ∧ t.mem.read a = u.mem.read a)

/-! ### The whole machine -/

/-- An instruction at 0xFFFFFFFC that does not branch has no successor: the loads (but of R15), the stores, the swaps, the
block transfers (but an LDM of R15), the multiplies, MRS, MSR, MRC and MCR, where elsewhere they complete, are refused
(10_state.md R34, the spec's decision D20; log 29, DESIGN CHOICE). The data-processing instructions are in
DataImmediateResult, DataRegisterResult and DataRegisterShiftResult, the cancelled ones in CancelledOnlyAdvances. -/
def Obligations.NoSuccessor : Prop :=
  ∀ (c : Cond) (s : State) (i : Instr), s.cpsr.flags.pass c = true → s.pc = 0xFFFFFFFC#32 →
    ((∃ k o ix rn rd a r u, i = singleInstr k o c ix rn rd ∧ singleOk k o ix rn rd = true ∧
        (k = .ldr → rd ≠ 15#4) ∧ a = singleAddr k o ix rn s ∧
        (k.byte = false → s.cp15.control.a = true → a.extractLsb' 0 2 = 0#2) ∧
        reach (if k.load then .read else .write) (k.priv s) (if k.byte then 1 else 4)
          (if k.byte then a else wordAligned a) s = .ok r u) ∨
      (∃ k o ix rn rd a r u, i = halfInstr k o c ix rn rd ∧ halfOk o ix rn rd = true ∧ a = halfAddr o ix rn s ∧
        (k = .ldrsb ∨ a.getLsbD 0 = false) ∧
        reach (if k = .strh then .write else .read) s.privileged (if k = .ldrsb then 1 else 2) a s = .ok r u) ∨
      (∃ rn rd rm a r u q v, swapOk rn rd rm = true ∧ a = s.readReg rn ∧
        (i = .swp c rn rd rm ∧ (s.cp15.control.a = true → a.extractLsb' 0 2 = 0#2) ∧
            reach .lockedRead s.privileged 4 (wordAligned a) s = .ok r u ∧
            reach .write s.privileged 4 (wordAligned a) u = .ok q v ∨
          i = .swpb c rn rd rm ∧ reach .lockedRead s.privileged 1 a s = .ok r u ∧
            reach .write s.privileged 1 a u = .ok q v)) ∨
      (∃ bm rn list start u, blockModeOk bm s.cpsr.mode = true ∧ start = blockStart bm (s.readReg rn) list ∧
        blockFits start list = true ∧ (s.cp15.control.a = true → (s.readReg rn).extractLsb' 0 2 = 0#2) ∧
        (i = .ldm c bm rn list ∧ loadBlockOk bm rn list = true ∧ inList list 15#4 = false ∧
            (∃ vs, readBlock (regsOf list) start s = .done vs u) ∨
          i = .stm c bm rn list ∧ storeBlockOk bm rn list = true ∧
            writeBlock (storedValues bm list s) start s = .done () u)) ∨
      (∃ sf rd rn rs rm, rd ≠ 15#4 ∧ rs ≠ 15#4 ∧ rm ≠ 15#4 ∧ rd ≠ rm ∧
        (i = .mul c sf rd rs rm ∨ i = .mla c sf rd rn rs rm ∧ rn ≠ 15#4)) ∨
      (∃ sf hi lo rs rm, hi ≠ 15#4 ∧ lo ≠ 15#4 ∧ rs ≠ 15#4 ∧ rm ≠ 15#4 ∧ hi ≠ lo ∧ hi ≠ rm ∧ lo ≠ rm ∧
        (i = .umull c sf hi lo rs rm ∨ i = .umlal c sf hi lo rs rm ∨ i = .smull c sf hi lo rs rm ∨
          i = .smlal c sf hi lo rs rm)) ∨
      (∃ spsr rd, i = .mrs c spsr rd ∧ rd ≠ 15#4 ∧ (spsr = true → s.spsrNow ≠ none)) ∨
      (∃ spsr mask v, MsrOperand c spsr mask i v s ∧ (spsr = true → s.spsrNow ≠ none) ∧
        (spsr = false → mask.getLsbD 0 = false ∨ s.cpsr.mode = .usr ∨ ∃ m, Mode.ofBits (v.extractLsb' 0 5) = some m)) ∨
      (s.cpsr.mode ≠ .usr ∧ ∃ op1 crn rd op2 crm,
        (i = .mrc c op1 crn rd op2 crm ∧ crn.toNat ∈ [0, 1, 2, 3, 5, 6] ∨
          i = .mcr c op1 crn rd op2 crm ∧ rd ≠ 15#4 ∧
            (crn.toNat ∈ [1, 2, 3, 5, 6] ∨ crn = 7#4 ∧ { crm := crm, op2 := op2 } ∈ s.plat.c7Ops ∨
              crn = 8#4 ∧ ∃ x ∈ s.plat.c8Ops, x.crm = crm ∧ x.op2 = op2)))) →
    exec i s = .refused .noSuccessor

/-- A step runs the decoded instruction: where no change of the mapping is open at the pc, the fetch reaches a word that
awaits no barrier and is decoded to `i`, and the hazard of a User-bank LDM does not meet `i`, the step is `exec` of `i` in
the state the fetch left (the TLB may have gained a translation), the hazard over, then the interrupts and the inputs of
the next step (60_exceptions.md R452; 70_reset_and_hazards.md R492). -/
def Obligations.StepRunsDecoded : Prop :=
  ∀ (s u : State) (r : Reached) (i : Instr),
    s.inputs.reset = false → mappingOpen s s.pc = false → reach .fetch s.privileged 4 s.pc s = .ok r u →
    staleAt u s.pc r.pa = false → decode (u.mem.readWord (wordCell r.pa)) = .ok i → hazardous i u = false →
    step s = endStep (exec i (u.withBankHazard false)) ∧
    (s.cp15.control.m = false → u = s ∧ r.pa = s.pc)

/-- After a User-bank LDM, an instruction that is executed and names a banked register of the current mode is refused
(70_reset_and_hazards.md R506, with the spec's decision D14; log 24). -/
def Obligations.BankedAfterUserLoad : Prop :=
  ∀ (s u : State) (r : Reached) (i : Instr),
    s.inputs.reset = false → mappingOpen s s.pc = false → reach .fetch s.privileged 4 s.pc s = .ok r u →
    staleAt u s.pc r.pa = false → decode (u.mem.readWord (wordCell r.pa)) = .ok i →
    s.bankHazard = true → s.cpsr.flags.pass i.cond = true →
    (∃ n ∈ namedRegs i, s.cpsr.mode.bank n ≠ Mode.usr.bank n) → step s = .refused .bankedAfterUserLdm

/-- The invariant holds of the machine right after reset. That the TLB is empty then, and no mapping on record, is the
model's choice (log 19, log 50), and so is the canonical form of memory. -/
def Obligations.InvAtReset : Prop := State.reset.Inv

/-- Every step keeps the invariant, from every state that has it: memory stays canonical, the pc a word address, the words
that await a barrier word addresses, the cached translations mapping descriptors, and so those on record (10_state.md R30;
20_memory.md R96, R102, R103, R114). The canonical form of memory is the model's own; the TLB is log 19, the mappings on
record log 50. -/
def Obligations.InvKept : Prop := ∀ s t : State, s.Inv → step s = .next t → t.Inv

/-- User mode is confined: a step from User mode either stays in User mode, and then the interrupt masks, every SPSR,
every CP15 register and every register of another mode's bank are as before; or it is an exception or a reset, and
then it goes to one of the seven vectors in a mode other than System with IRQ disabled (10_state.md R46;
43_psr_transfer.md R255; 60_exceptions.md R471, R472). -/
def Obligations.UserModeConfined : Prop :=
  ∀ s t : State, s.cpsr.mode = .usr → step s = .next t →
    (t.cpsr.mode = .usr ∧ t.cpsr.i = s.cpsr.i ∧ t.cpsr.f = s.cpsr.f ∧ t.spsr = s.spsr ∧ t.cp15 = s.cp15 ∧
      (∀ p, (∀ n, Mode.usr.bank n ≠ some p) → t.regs.get p = s.regs.get p)) ∨
    (t.cpsr.mode ≠ .usr ∧ t.cpsr.mode ≠ .sys ∧ t.cpsr.i = true ∧
      t.pc ∈ [0x00#32, 0x04#32, 0x08#32, 0x0C#32, 0x10#32, 0x18#32, 0x1C#32])
end

