-- ==== Sys2Proof/Laws/Memory.lean ====
section
/-! SUPPORT. The laws of memory: reading after writing, and the canonical form, which every operation keeps. -/

set_option Elab.async false

namespace Sys2Proof.Machine

/-- A write leaves every other cell alone, in any memory. -/
theorem Memory.read_write_of_ne (m : Memory) {a b : Nat} (v : Byte) (h : b ≠ a) :
    (m.write a v).read b = m.read b := by
  induction m with
  | nil =>
    simp only [Memory.write]
    split <;> simp [Memory.read, h]
  | cons c t ih =>
    obtain ⟨x, y⟩ := c
    simp only [Memory.write]
    split
    · simp only [Memory.read, ih]
    · split
      · rename_i _ hx
        subst hx
        split <;> simp [Memory.read, h]
      · split <;> simp [Memory.read, h]

/-- No cell below the start of a canonical list is listed. -/
theorem Memory.read_of_wfFrom (m : Memory) {lo a : Nat} (h : Memory.wfFrom lo m = true) (ha : a < lo) :
    m.read a = Memory.unlisted := by
  induction m generalizing lo with
  | nil => rfl
  | cons c t ih =>
    obtain ⟨x, y⟩ := c
    simp only [Memory.wfFrom, Bool.and_eq_true, decide_eq_true_eq] at h
    obtain ⟨⟨⟨h1, _⟩, _⟩, h4⟩ := h
    have : a ≠ x := by omega
    simp only [Memory.read, this, if_false]
    exact ih h4 (by omega)

/-- A canonical list from a higher address on is one from a lower address on. -/
theorem Memory.wfFrom_mono (m : Memory) {lo lo' : Nat} (h : Memory.wfFrom lo m = true) (hl : lo' ≤ lo) :
    Memory.wfFrom lo' m = true := by
  cases m with
  | nil => rfl
  | cons c t =>
    obtain ⟨x, y⟩ := c
    simp only [Memory.wfFrom, Bool.and_eq_true, decide_eq_true_eq] at h ⊢
    exact ⟨⟨⟨by omega, h.1.1.2⟩, h.1.2⟩, h.2⟩

/-- A cell of a canonical memory reads as it was written. -/
theorem Memory.read_write_same_from (m : Memory) {lo a : Nat} (v : Byte) (h : Memory.wfFrom lo m = true) :
    (m.write a v).read a = v := by
  induction m generalizing lo with
  | nil =>
    simp only [Memory.write]
    split
    · rename_i hv; simp [Memory.read, hv]
    · simp [Memory.read]
  | cons c t ih =>
    obtain ⟨x, y⟩ := c
    simp only [Memory.wfFrom, Bool.and_eq_true, decide_eq_true_eq] at h
    obtain ⟨⟨⟨_, _⟩, _⟩, h4⟩ := h
    simp only [Memory.write]
    split
    · rename_i hx
      have : a ≠ x := by omega
      simp only [Memory.read, this, if_false]
      exact ih h4
    · split
      · rename_i _ hx
        subst hx
        split
        · rename_i hv
          rw [hv]
          exact Memory.read_of_wfFrom t h4 (by omega)
        · simp [Memory.read]
      · rename_i h1 h2
        split
        · rename_i hv
          have : a ≠ x := by omega
          simp only [Memory.read, this, if_false, hv]
          exact Memory.read_of_wfFrom t h4 (by omega)
        · simp [Memory.read]

/-- A cell of a canonical memory reads as it was written. -/
theorem Memory.read_write_same (m : Memory) (a : Nat) (v : Byte) (h : m.wf = true) : (m.write a v).read a = v :=
  Memory.read_write_same_from m v h

/-- A write inside the address space keeps the canonical form, from any start not above the address. -/
theorem Memory.wfFrom_write (m : Memory) {lo a : Nat} (v : Byte) (h : Memory.wfFrom lo m = true) (hl : lo ≤ a)
    (ha : a < 2 ^ 32) : Memory.wfFrom lo (m.write a v) = true := by
  induction m generalizing lo with
  | nil =>
    simp only [Memory.write]
    split
    · rfl
    · rename_i hv; simp [Memory.wfFrom, hl, hv]; omega
  | cons c t ih =>
    obtain ⟨x, y⟩ := c
    have h' := h
    simp only [Memory.wfFrom, Bool.and_eq_true, decide_eq_true_eq] at h
    obtain ⟨⟨⟨h1, h2⟩, h3⟩, h4⟩ := h
    simp only [Memory.write]
    split
    · rename_i hx
      simp only [Memory.wfFrom, Bool.and_eq_true, decide_eq_true_eq]
      exact ⟨⟨⟨h1, h2⟩, h3⟩, ih h4 (by omega)⟩
    · split
      · rename_i _ hx
        subst hx
        split
        · exact Memory.wfFrom_mono t h4 (by omega)
        · rename_i hv
          simp only [Memory.wfFrom, Bool.and_eq_true, decide_eq_true_eq]
          exact ⟨⟨⟨h1, h2⟩, hv⟩, h4⟩
      · rename_i hx1 hx2
        split
        · exact h'
        · rename_i hv
          simp only [Memory.wfFrom, Bool.and_eq_true, decide_eq_true_eq]
          exact ⟨⟨⟨hl, ha⟩, hv⟩, ⟨⟨by omega, h2⟩, h3⟩, h4⟩

/-- A write inside the address space keeps the canonical form. -/
theorem Memory.wf_write (m : Memory) (a : Nat) (v : Byte) (h : m.wf = true) (ha : a < 2 ^ 32) :
    (m.write a v).wf = true :=
  Memory.wfFrom_write m v h (Nat.zero_le a) ha

/-- A half-word write inside the address space keeps the canonical form. -/
theorem Memory.wf_writeHalf (m : Memory) (lo : Nat) (v : BitVec 16) (h : m.wf = true) (hl : lo + 1 < 2 ^ 32) :
    (m.writeHalf lo v).wf = true :=
  Memory.wf_write _ _ _ (Memory.wf_write _ _ _ h (by omega)) (by omega)

/-- A word write inside the address space keeps the canonical form. -/
theorem Memory.wf_writeWord (m : Memory) (lo : Nat) (v : Word) (h : m.wf = true) (hl : lo + 3 < 2 ^ 32) :
    (m.writeWord lo v).wf = true :=
  Memory.wf_write _ _ _ (Memory.wf_write _ _ _ (Memory.wf_write _ _ _ (Memory.wf_write _ _ _ h (by omega))
    (by omega)) (by omega)) (by omega)

/-- A half-word write leaves every other cell alone. -/
theorem Memory.read_writeHalf_of_ne (m : Memory) {lo a : Nat} (v : BitVec 16) (h : a < lo ∨ lo + 2 ≤ a) :
    (m.writeHalf lo v).read a = m.read a := by
  unfold Memory.writeHalf
  rw [Memory.read_write_of_ne _ _ (by omega), Memory.read_write_of_ne _ _ (by omega)]

/-- A word write leaves every other cell alone. -/
theorem Memory.read_writeWord_of_ne (m : Memory) {lo a : Nat} (v : Word) (h : a < lo ∨ lo + 4 ≤ a) :
    (m.writeWord lo v).read a = m.read a := by
  unfold Memory.writeWord
  rw [Memory.read_write_of_ne _ _ (by omega), Memory.read_write_of_ne _ _ (by omega),
    Memory.read_write_of_ne _ _ (by omega), Memory.read_write_of_ne _ _ (by omega)]

/-- A half-word of a canonical memory reads as it was written. -/
theorem Memory.readHalf_writeHalf (m : Memory) (lo : Nat) (v : BitVec 16) (h : m.wf = true)
    (hl : lo + 1 < 2 ^ 32) : (m.writeHalf lo v).readHalf lo = v := by
  have h1 := Memory.wf_write m lo (v.extractLsb' 0 8) h (by omega)
  unfold Memory.readHalf Memory.writeHalf
  rw [Memory.read_write_same _ _ _ h1, Memory.read_write_of_ne _ _ (by omega), Memory.read_write_same _ _ _ h]
  ext i hi
  simp only [BitVec.getElem_append, BitVec.getElem_extractLsb']
  split <;> (rw [BitVec.getLsbD_eq_getElem (by omega)]; congr 1; omega)

/-- A word of a canonical memory reads as it was written. -/
theorem Memory.readWord_writeWord (m : Memory) (lo : Nat) (v : Word) (h : m.wf = true) (hl : lo + 3 < 2 ^ 32) :
    (m.writeWord lo v).readWord lo = v := by
  have h1 := Memory.wf_write m lo (v.extractLsb' 0 8) h (by omega)
  have h2 := Memory.wf_write _ (lo + 1) (v.extractLsb' 8 8) h1 (by omega)
  have h3 := Memory.wf_write _ (lo + 2) (v.extractLsb' 16 8) h2 (by omega)
  unfold Memory.readWord Memory.writeWord
  rw [Memory.read_write_same _ _ _ h3, Memory.read_write_of_ne _ _ (by omega : lo + 2 ≠ lo + 3),
    Memory.read_write_same _ _ _ h2, Memory.read_write_of_ne _ _ (by omega : lo + 1 ≠ lo + 3),
    Memory.read_write_of_ne _ _ (by omega : lo + 1 ≠ lo + 2), Memory.read_write_same _ _ _ h1,
    Memory.read_write_of_ne _ _ (by omega : lo ≠ lo + 3), Memory.read_write_of_ne _ _ (by omega : lo ≠ lo + 2),
    Memory.read_write_of_ne _ _ (by omega : lo ≠ lo + 1), Memory.read_write_same _ _ _ h]
  ext i hi
  simp only [BitVec.getElem_append, BitVec.getElem_extractLsb']
  split
  · rw [BitVec.getLsbD_eq_getElem (by omega)]; congr 1; omega
  · split
    · rw [BitVec.getLsbD_eq_getElem (by omega)]; congr 1; omega
    · split <;> (rw [BitVec.getLsbD_eq_getElem (by omega)]; congr 1; omega)

end Sys2Proof.Machine
end

