-- ==== Sys2Proof/Laws/State.lean ====
section
/-! SUPPORT. One lemma for each field and each named update of the state, true by `rfl`. -/

set_option Elab.async false

namespace Sys2Proof.Machine

@[simp] theorem State.withRegs_regs (s : State) (x : Regs) : (s.withRegs x).regs = x := rfl
@[simp] theorem State.withRegs_pc (s : State) (x : Regs) : (s.withRegs x).pc = s.pc := rfl
@[simp] theorem State.withRegs_cpsr (s : State) (x : Regs) : (s.withRegs x).cpsr = s.cpsr := rfl
@[simp] theorem State.withRegs_spsr (s : State) (x : Regs) : (s.withRegs x).spsr = s.spsr := rfl
@[simp] theorem State.withRegs_cp15 (s : State) (x : Regs) : (s.withRegs x).cp15 = s.cp15 := rfl
@[simp] theorem State.withRegs_mem (s : State) (x : Regs) : (s.withRegs x).mem = s.mem := rfl
@[simp] theorem State.withRegs_stale (s : State) (x : Regs) : (s.withRegs x).stale = s.stale := rfl
@[simp] theorem State.withRegs_oldMaps (s : State) (x : Regs) : (s.withRegs x).oldMaps = s.oldMaps := rfl
@[simp] theorem State.withRegs_tlb (s : State) (x : Regs) : (s.withRegs x).tlb = s.tlb := rfl
@[simp] theorem State.withRegs_bankHazard (s : State) (x : Regs) : (s.withRegs x).bankHazard = s.bankHazard := rfl
@[simp] theorem State.withRegs_env (s : State) (x : Regs) : (s.withRegs x).env = s.env := rfl
@[simp] theorem State.withRegs_plat (s : State) (x : Regs) : (s.withRegs x).plat = s.plat := rfl
@[simp] theorem State.withRegs_draws (s : State) (x : Regs) : (s.withRegs x).draws = s.draws := rfl

@[simp] theorem State.withPc_regs (s : State) (x : Word) : (s.withPc x).regs = s.regs := rfl
@[simp] theorem State.withPc_pc (s : State) (x : Word) : (s.withPc x).pc = x := rfl
@[simp] theorem State.withPc_cpsr (s : State) (x : Word) : (s.withPc x).cpsr = s.cpsr := rfl
@[simp] theorem State.withPc_spsr (s : State) (x : Word) : (s.withPc x).spsr = s.spsr := rfl
@[simp] theorem State.withPc_cp15 (s : State) (x : Word) : (s.withPc x).cp15 = s.cp15 := rfl
@[simp] theorem State.withPc_mem (s : State) (x : Word) : (s.withPc x).mem = s.mem := rfl
@[simp] theorem State.withPc_stale (s : State) (x : Word) : (s.withPc x).stale = s.stale := rfl
@[simp] theorem State.withPc_oldMaps (s : State) (x : Word) : (s.withPc x).oldMaps = s.oldMaps := rfl
@[simp] theorem State.withPc_tlb (s : State) (x : Word) : (s.withPc x).tlb = s.tlb := rfl
@[simp] theorem State.withPc_bankHazard (s : State) (x : Word) : (s.withPc x).bankHazard = s.bankHazard := rfl
@[simp] theorem State.withPc_env (s : State) (x : Word) : (s.withPc x).env = s.env := rfl
@[simp] theorem State.withPc_plat (s : State) (x : Word) : (s.withPc x).plat = s.plat := rfl
@[simp] theorem State.withPc_draws (s : State) (x : Word) : (s.withPc x).draws = s.draws := rfl

@[simp] theorem State.withCpsr_regs (s : State) (x : Cpsr) : (s.withCpsr x).regs = s.regs := rfl
@[simp] theorem State.withCpsr_pc (s : State) (x : Cpsr) : (s.withCpsr x).pc = s.pc := rfl
@[simp] theorem State.withCpsr_cpsr (s : State) (x : Cpsr) : (s.withCpsr x).cpsr = x := rfl
@[simp] theorem State.withCpsr_spsr (s : State) (x : Cpsr) : (s.withCpsr x).spsr = s.spsr := rfl
@[simp] theorem State.withCpsr_cp15 (s : State) (x : Cpsr) : (s.withCpsr x).cp15 = s.cp15 := rfl
@[simp] theorem State.withCpsr_mem (s : State) (x : Cpsr) : (s.withCpsr x).mem = s.mem := rfl
@[simp] theorem State.withCpsr_stale (s : State) (x : Cpsr) : (s.withCpsr x).stale = s.stale := rfl
@[simp] theorem State.withCpsr_oldMaps (s : State) (x : Cpsr) : (s.withCpsr x).oldMaps = s.oldMaps := rfl
@[simp] theorem State.withCpsr_tlb (s : State) (x : Cpsr) : (s.withCpsr x).tlb = s.tlb := rfl
@[simp] theorem State.withCpsr_bankHazard (s : State) (x : Cpsr) : (s.withCpsr x).bankHazard = s.bankHazard := rfl
@[simp] theorem State.withCpsr_env (s : State) (x : Cpsr) : (s.withCpsr x).env = s.env := rfl
@[simp] theorem State.withCpsr_plat (s : State) (x : Cpsr) : (s.withCpsr x).plat = s.plat := rfl
@[simp] theorem State.withCpsr_draws (s : State) (x : Cpsr) : (s.withCpsr x).draws = s.draws := rfl

@[simp] theorem State.withSpsr_regs (s : State) (x : Spsrs) : (s.withSpsr x).regs = s.regs := rfl
@[simp] theorem State.withSpsr_pc (s : State) (x : Spsrs) : (s.withSpsr x).pc = s.pc := rfl
@[simp] theorem State.withSpsr_cpsr (s : State) (x : Spsrs) : (s.withSpsr x).cpsr = s.cpsr := rfl
@[simp] theorem State.withSpsr_spsr (s : State) (x : Spsrs) : (s.withSpsr x).spsr = x := rfl
@[simp] theorem State.withSpsr_cp15 (s : State) (x : Spsrs) : (s.withSpsr x).cp15 = s.cp15 := rfl
@[simp] theorem State.withSpsr_mem (s : State) (x : Spsrs) : (s.withSpsr x).mem = s.mem := rfl
@[simp] theorem State.withSpsr_stale (s : State) (x : Spsrs) : (s.withSpsr x).stale = s.stale := rfl
@[simp] theorem State.withSpsr_oldMaps (s : State) (x : Spsrs) : (s.withSpsr x).oldMaps = s.oldMaps := rfl
@[simp] theorem State.withSpsr_tlb (s : State) (x : Spsrs) : (s.withSpsr x).tlb = s.tlb := rfl
@[simp] theorem State.withSpsr_bankHazard (s : State) (x : Spsrs) : (s.withSpsr x).bankHazard = s.bankHazard := rfl
@[simp] theorem State.withSpsr_env (s : State) (x : Spsrs) : (s.withSpsr x).env = s.env := rfl
@[simp] theorem State.withSpsr_plat (s : State) (x : Spsrs) : (s.withSpsr x).plat = s.plat := rfl
@[simp] theorem State.withSpsr_draws (s : State) (x : Spsrs) : (s.withSpsr x).draws = s.draws := rfl

@[simp] theorem State.withCp15_regs (s : State) (x : Cp15) : (s.withCp15 x).regs = s.regs := rfl
@[simp] theorem State.withCp15_pc (s : State) (x : Cp15) : (s.withCp15 x).pc = s.pc := rfl
@[simp] theorem State.withCp15_cpsr (s : State) (x : Cp15) : (s.withCp15 x).cpsr = s.cpsr := rfl
@[simp] theorem State.withCp15_spsr (s : State) (x : Cp15) : (s.withCp15 x).spsr = s.spsr := rfl
@[simp] theorem State.withCp15_cp15 (s : State) (x : Cp15) : (s.withCp15 x).cp15 = x := rfl
@[simp] theorem State.withCp15_mem (s : State) (x : Cp15) : (s.withCp15 x).mem = s.mem := rfl
@[simp] theorem State.withCp15_stale (s : State) (x : Cp15) : (s.withCp15 x).stale = s.stale := rfl
@[simp] theorem State.withCp15_oldMaps (s : State) (x : Cp15) : (s.withCp15 x).oldMaps = s.oldMaps := rfl
@[simp] theorem State.withCp15_tlb (s : State) (x : Cp15) : (s.withCp15 x).tlb = s.tlb := rfl
@[simp] theorem State.withCp15_bankHazard (s : State) (x : Cp15) : (s.withCp15 x).bankHazard = s.bankHazard := rfl
@[simp] theorem State.withCp15_env (s : State) (x : Cp15) : (s.withCp15 x).env = s.env := rfl
@[simp] theorem State.withCp15_plat (s : State) (x : Cp15) : (s.withCp15 x).plat = s.plat := rfl
@[simp] theorem State.withCp15_draws (s : State) (x : Cp15) : (s.withCp15 x).draws = s.draws := rfl

@[simp] theorem State.withMem_regs (s : State) (x : Memory) : (s.withMem x).regs = s.regs := rfl
@[simp] theorem State.withMem_pc (s : State) (x : Memory) : (s.withMem x).pc = s.pc := rfl
@[simp] theorem State.withMem_cpsr (s : State) (x : Memory) : (s.withMem x).cpsr = s.cpsr := rfl
@[simp] theorem State.withMem_spsr (s : State) (x : Memory) : (s.withMem x).spsr = s.spsr := rfl
@[simp] theorem State.withMem_cp15 (s : State) (x : Memory) : (s.withMem x).cp15 = s.cp15 := rfl
@[simp] theorem State.withMem_mem (s : State) (x : Memory) : (s.withMem x).mem = x := rfl
@[simp] theorem State.withMem_stale (s : State) (x : Memory) : (s.withMem x).stale = s.stale := rfl
@[simp] theorem State.withMem_oldMaps (s : State) (x : Memory) : (s.withMem x).oldMaps = s.oldMaps := rfl
@[simp] theorem State.withMem_tlb (s : State) (x : Memory) : (s.withMem x).tlb = s.tlb := rfl
@[simp] theorem State.withMem_bankHazard (s : State) (x : Memory) : (s.withMem x).bankHazard = s.bankHazard := rfl
@[simp] theorem State.withMem_env (s : State) (x : Memory) : (s.withMem x).env = s.env := rfl
@[simp] theorem State.withMem_plat (s : State) (x : Memory) : (s.withMem x).plat = s.plat := rfl
@[simp] theorem State.withMem_draws (s : State) (x : Memory) : (s.withMem x).draws = s.draws := rfl

@[simp] theorem State.withStale_regs (s : State) (x : List StaleWord) : (s.withStale x).regs = s.regs := rfl
@[simp] theorem State.withStale_pc (s : State) (x : List StaleWord) : (s.withStale x).pc = s.pc := rfl
@[simp] theorem State.withStale_cpsr (s : State) (x : List StaleWord) : (s.withStale x).cpsr = s.cpsr := rfl
@[simp] theorem State.withStale_spsr (s : State) (x : List StaleWord) : (s.withStale x).spsr = s.spsr := rfl
@[simp] theorem State.withStale_cp15 (s : State) (x : List StaleWord) : (s.withStale x).cp15 = s.cp15 := rfl
@[simp] theorem State.withStale_mem (s : State) (x : List StaleWord) : (s.withStale x).mem = s.mem := rfl
@[simp] theorem State.withStale_stale (s : State) (x : List StaleWord) : (s.withStale x).stale = x := rfl
@[simp] theorem State.withStale_oldMaps (s : State) (x : List StaleWord) : (s.withStale x).oldMaps = s.oldMaps := rfl
@[simp] theorem State.withStale_tlb (s : State) (x : List StaleWord) : (s.withStale x).tlb = s.tlb := rfl
@[simp] theorem State.withStale_bankHazard (s : State) (x : List StaleWord) : (s.withStale x).bankHazard = s.bankHazard := rfl
@[simp] theorem State.withStale_env (s : State) (x : List StaleWord) : (s.withStale x).env = s.env := rfl
@[simp] theorem State.withStale_plat (s : State) (x : List StaleWord) : (s.withStale x).plat = s.plat := rfl
@[simp] theorem State.withStale_draws (s : State) (x : List StaleWord) : (s.withStale x).draws = s.draws := rfl

@[simp] theorem State.withOldMaps_regs (s : State) (x : List OldMapping) : (s.withOldMaps x).regs = s.regs := rfl
@[simp] theorem State.withOldMaps_pc (s : State) (x : List OldMapping) : (s.withOldMaps x).pc = s.pc := rfl
@[simp] theorem State.withOldMaps_cpsr (s : State) (x : List OldMapping) : (s.withOldMaps x).cpsr = s.cpsr := rfl
@[simp] theorem State.withOldMaps_spsr (s : State) (x : List OldMapping) : (s.withOldMaps x).spsr = s.spsr := rfl
@[simp] theorem State.withOldMaps_cp15 (s : State) (x : List OldMapping) : (s.withOldMaps x).cp15 = s.cp15 := rfl
@[simp] theorem State.withOldMaps_mem (s : State) (x : List OldMapping) : (s.withOldMaps x).mem = s.mem := rfl
@[simp] theorem State.withOldMaps_stale (s : State) (x : List OldMapping) : (s.withOldMaps x).stale = s.stale := rfl
@[simp] theorem State.withOldMaps_oldMaps (s : State) (x : List OldMapping) : (s.withOldMaps x).oldMaps = x := rfl
@[simp] theorem State.withOldMaps_tlb (s : State) (x : List OldMapping) : (s.withOldMaps x).tlb = s.tlb := rfl
@[simp] theorem State.withOldMaps_bankHazard (s : State) (x : List OldMapping) : (s.withOldMaps x).bankHazard = s.bankHazard := rfl
@[simp] theorem State.withOldMaps_env (s : State) (x : List OldMapping) : (s.withOldMaps x).env = s.env := rfl
@[simp] theorem State.withOldMaps_plat (s : State) (x : List OldMapping) : (s.withOldMaps x).plat = s.plat := rfl
@[simp] theorem State.withOldMaps_draws (s : State) (x : List OldMapping) : (s.withOldMaps x).draws = s.draws := rfl

@[simp] theorem State.withTlb_regs (s : State) (x : List TlbEntry) : (s.withTlb x).regs = s.regs := rfl
@[simp] theorem State.withTlb_pc (s : State) (x : List TlbEntry) : (s.withTlb x).pc = s.pc := rfl
@[simp] theorem State.withTlb_cpsr (s : State) (x : List TlbEntry) : (s.withTlb x).cpsr = s.cpsr := rfl
@[simp] theorem State.withTlb_spsr (s : State) (x : List TlbEntry) : (s.withTlb x).spsr = s.spsr := rfl
@[simp] theorem State.withTlb_cp15 (s : State) (x : List TlbEntry) : (s.withTlb x).cp15 = s.cp15 := rfl
@[simp] theorem State.withTlb_mem (s : State) (x : List TlbEntry) : (s.withTlb x).mem = s.mem := rfl
@[simp] theorem State.withTlb_stale (s : State) (x : List TlbEntry) : (s.withTlb x).stale = s.stale := rfl
@[simp] theorem State.withTlb_oldMaps (s : State) (x : List TlbEntry) : (s.withTlb x).oldMaps = s.oldMaps := rfl
@[simp] theorem State.withTlb_tlb (s : State) (x : List TlbEntry) : (s.withTlb x).tlb = x := rfl
@[simp] theorem State.withTlb_bankHazard (s : State) (x : List TlbEntry) : (s.withTlb x).bankHazard = s.bankHazard := rfl
@[simp] theorem State.withTlb_env (s : State) (x : List TlbEntry) : (s.withTlb x).env = s.env := rfl
@[simp] theorem State.withTlb_plat (s : State) (x : List TlbEntry) : (s.withTlb x).plat = s.plat := rfl
@[simp] theorem State.withTlb_draws (s : State) (x : List TlbEntry) : (s.withTlb x).draws = s.draws := rfl

@[simp] theorem State.withBankHazard_regs (s : State) (x : Bool) : (s.withBankHazard x).regs = s.regs := rfl
@[simp] theorem State.withBankHazard_pc (s : State) (x : Bool) : (s.withBankHazard x).pc = s.pc := rfl
@[simp] theorem State.withBankHazard_cpsr (s : State) (x : Bool) : (s.withBankHazard x).cpsr = s.cpsr := rfl
@[simp] theorem State.withBankHazard_spsr (s : State) (x : Bool) : (s.withBankHazard x).spsr = s.spsr := rfl
@[simp] theorem State.withBankHazard_cp15 (s : State) (x : Bool) : (s.withBankHazard x).cp15 = s.cp15 := rfl
@[simp] theorem State.withBankHazard_mem (s : State) (x : Bool) : (s.withBankHazard x).mem = s.mem := rfl
@[simp] theorem State.withBankHazard_stale (s : State) (x : Bool) : (s.withBankHazard x).stale = s.stale := rfl
@[simp] theorem State.withBankHazard_oldMaps (s : State) (x : Bool) : (s.withBankHazard x).oldMaps = s.oldMaps := rfl
@[simp] theorem State.withBankHazard_tlb (s : State) (x : Bool) : (s.withBankHazard x).tlb = s.tlb := rfl
@[simp] theorem State.withBankHazard_bankHazard (s : State) (x : Bool) : (s.withBankHazard x).bankHazard = x := rfl
@[simp] theorem State.withBankHazard_env (s : State) (x : Bool) : (s.withBankHazard x).env = s.env := rfl
@[simp] theorem State.withBankHazard_plat (s : State) (x : Bool) : (s.withBankHazard x).plat = s.plat := rfl
@[simp] theorem State.withBankHazard_draws (s : State) (x : Bool) : (s.withBankHazard x).draws = s.draws := rfl

@[simp] theorem State.withEnv_regs (s : State) (x : List Inputs) : (s.withEnv x).regs = s.regs := rfl
@[simp] theorem State.withEnv_pc (s : State) (x : List Inputs) : (s.withEnv x).pc = s.pc := rfl
@[simp] theorem State.withEnv_cpsr (s : State) (x : List Inputs) : (s.withEnv x).cpsr = s.cpsr := rfl
@[simp] theorem State.withEnv_spsr (s : State) (x : List Inputs) : (s.withEnv x).spsr = s.spsr := rfl
@[simp] theorem State.withEnv_cp15 (s : State) (x : List Inputs) : (s.withEnv x).cp15 = s.cp15 := rfl
@[simp] theorem State.withEnv_mem (s : State) (x : List Inputs) : (s.withEnv x).mem = s.mem := rfl
@[simp] theorem State.withEnv_stale (s : State) (x : List Inputs) : (s.withEnv x).stale = s.stale := rfl
@[simp] theorem State.withEnv_oldMaps (s : State) (x : List Inputs) : (s.withEnv x).oldMaps = s.oldMaps := rfl
@[simp] theorem State.withEnv_tlb (s : State) (x : List Inputs) : (s.withEnv x).tlb = s.tlb := rfl
@[simp] theorem State.withEnv_bankHazard (s : State) (x : List Inputs) : (s.withEnv x).bankHazard = s.bankHazard := rfl
@[simp] theorem State.withEnv_env (s : State) (x : List Inputs) : (s.withEnv x).env = x := rfl
@[simp] theorem State.withEnv_plat (s : State) (x : List Inputs) : (s.withEnv x).plat = s.plat := rfl
@[simp] theorem State.withEnv_draws (s : State) (x : List Inputs) : (s.withEnv x).draws = s.draws := rfl

@[simp] theorem State.withPlat_regs (s : State) (x : Platform) : (s.withPlat x).regs = s.regs := rfl
@[simp] theorem State.withPlat_pc (s : State) (x : Platform) : (s.withPlat x).pc = s.pc := rfl
@[simp] theorem State.withPlat_cpsr (s : State) (x : Platform) : (s.withPlat x).cpsr = s.cpsr := rfl
@[simp] theorem State.withPlat_spsr (s : State) (x : Platform) : (s.withPlat x).spsr = s.spsr := rfl
@[simp] theorem State.withPlat_cp15 (s : State) (x : Platform) : (s.withPlat x).cp15 = s.cp15 := rfl
@[simp] theorem State.withPlat_mem (s : State) (x : Platform) : (s.withPlat x).mem = s.mem := rfl
@[simp] theorem State.withPlat_stale (s : State) (x : Platform) : (s.withPlat x).stale = s.stale := rfl
@[simp] theorem State.withPlat_oldMaps (s : State) (x : Platform) : (s.withPlat x).oldMaps = s.oldMaps := rfl
@[simp] theorem State.withPlat_tlb (s : State) (x : Platform) : (s.withPlat x).tlb = s.tlb := rfl
@[simp] theorem State.withPlat_bankHazard (s : State) (x : Platform) : (s.withPlat x).bankHazard = s.bankHazard := rfl
@[simp] theorem State.withPlat_env (s : State) (x : Platform) : (s.withPlat x).env = s.env := rfl
@[simp] theorem State.withPlat_plat (s : State) (x : Platform) : (s.withPlat x).plat = x := rfl
@[simp] theorem State.withPlat_draws (s : State) (x : Platform) : (s.withPlat x).draws = s.draws := rfl

@[simp] theorem State.withDraws_regs (s : State) (x : Nat) : (s.withDraws x).regs = s.regs := rfl
@[simp] theorem State.withDraws_pc (s : State) (x : Nat) : (s.withDraws x).pc = s.pc := rfl
@[simp] theorem State.withDraws_cpsr (s : State) (x : Nat) : (s.withDraws x).cpsr = s.cpsr := rfl
@[simp] theorem State.withDraws_spsr (s : State) (x : Nat) : (s.withDraws x).spsr = s.spsr := rfl
@[simp] theorem State.withDraws_cp15 (s : State) (x : Nat) : (s.withDraws x).cp15 = s.cp15 := rfl
@[simp] theorem State.withDraws_mem (s : State) (x : Nat) : (s.withDraws x).mem = s.mem := rfl
@[simp] theorem State.withDraws_stale (s : State) (x : Nat) : (s.withDraws x).stale = s.stale := rfl
@[simp] theorem State.withDraws_oldMaps (s : State) (x : Nat) : (s.withDraws x).oldMaps = s.oldMaps := rfl
@[simp] theorem State.withDraws_tlb (s : State) (x : Nat) : (s.withDraws x).tlb = s.tlb := rfl
@[simp] theorem State.withDraws_bankHazard (s : State) (x : Nat) : (s.withDraws x).bankHazard = s.bankHazard := rfl
@[simp] theorem State.withDraws_env (s : State) (x : Nat) : (s.withDraws x).env = s.env := rfl
@[simp] theorem State.withDraws_plat (s : State) (x : Nat) : (s.withDraws x).plat = s.plat := rfl
@[simp] theorem State.withDraws_draws (s : State) (x : Nat) : (s.withDraws x).draws = x := rfl

/-- Two states with the same fields are the same state. -/
@[ext] theorem State.ext_fields (s t : State)
    (h1 : s.regs = t.regs)
    (h2 : s.pc = t.pc)
    (h3 : s.cpsr = t.cpsr)
    (h4 : s.spsr = t.spsr)
    (h5 : s.cp15 = t.cp15)
    (h6 : s.mem = t.mem)
    (h7 : s.stale = t.stale)
    (h8 : s.oldMaps = t.oldMaps)
    (h9 : s.tlb = t.tlb)
    (h10 : s.bankHazard = t.bankHazard)
    (h11 : s.env = t.env)
    (h12 : s.plat = t.plat)
    (h13 : s.draws = t.draws) : s = t := by
  cases s; cases t; simp_all

end Sys2Proof.Machine
end

