-- ==== Sys2Proof/Laws/Registers.lean ====
section
/-! SUPPORT. The register file: reading after writing, banks, and what a register write leaves alone. -/

set_option Elab.async false

namespace Sys2Proof.Machine

/-- A physical register reads as it was set. -/
@[simp] theorem Regs.get_set_same (r : Regs) (p : PReg) (v : Word) : (r.set p v).get p = v := by
  cases p <;> rfl

/-- Setting a physical register leaves the others. -/
theorem Regs.get_set_of_ne (r : Regs) {p q : PReg} (v : Word) (h : q ≠ p) : (r.set p v).get q = r.get q := by
  cases p <;> cases q <;> first | rfl | exact absurd rfl h

/-- Reading after setting, as one rule. -/
theorem Regs.get_set (r : Regs) (p q : PReg) (v : Word) : (r.set p v).get q = if q = p then v else r.get q := by
  by_cases h : q = p
  · subst h; simp
  · simp [h, Regs.get_set_of_ne r v h]

/-- Two register files that read the same are the same. -/
theorem Regs.ext_get (r r' : Regs) (h : ∀ p, r.get p = r'.get p) : r = r' := by
  cases r; cases r'
  simp only [Regs.mk.injEq]
  exact ⟨h .r0, h .r1, h .r2, h .r3, h .r4, h .r5, h .r6, h .r7, h .r8Usr, h .r9Usr, h .r10Usr, h .r11Usr,
    h .r12Usr, h .r8Fiq, h .r9Fiq, h .r10Fiq, h .r11Fiq, h .r12Fiq, h .r13Usr, h .r14Usr, h .r13Fiq, h .r14Fiq,
    h .r13Irq, h .r14Irq, h .r13Svc, h .r14Svc, h .r13Abt, h .r14Abt, h .r13Und, h .r14Und⟩

/-- Only R15 names no physical register (10_state.md R24). -/
theorem Mode.bank_eq_none (m : Mode) (n : Reg) : m.bank n = none ↔ n = 15#4 := by
  cases m <;> revert n <;> decide

/-- Two numbers of one mode name different physical registers (10_state.md R24). -/
theorem Mode.bank_injective (m : Mode) (n k : Reg) : m.bank n = m.bank k → n = k := by
  cases m <;> revert n k <;> decide

/-- A number other than 15 names a physical register. -/
theorem Mode.bank_some (m : Mode) (n : Reg) (h : n ≠ 15#4) : ∃ p, m.bank n = some p := by
  cases hb : m.bank n with
  | none => exact absurd ((Mode.bank_eq_none m n).1 hb) h
  | some p => exact ⟨p, rfl⟩

/-- R13 is the register R13 names (10_state.md R24). -/
@[simp] theorem Mode.bank_thirteen (m : Mode) : m.bank 13#4 = some m.bank13 := rfl

/-- R14 is the register R14 names (10_state.md R24). -/
@[simp] theorem Mode.bank_fourteen (m : Mode) : m.bank 14#4 = some m.bank14 := rfl

/-- R15 names no physical register. -/
@[simp] theorem Mode.bank_fifteen (m : Mode) : m.bank 15#4 = none := rfl

/-- Clearing bits 1:0 twice is clearing them once. -/
@[simp] theorem wordAligned_idem (v : Word) : wordAligned (wordAligned v) = wordAligned v := by
  simp only [wordAligned, BitVec.and_assoc, BitVec.and_self]

/-- R15 reads as the PC plus 8. -/
theorem State.readReg_pc (s : State) : s.readReg 15#4 = s.readPc := rfl

/-- A write of R15 is a write of the PC. -/
theorem State.setReg_pc (s : State) (v : Word) : s.setReg 15#4 v = s.withPc (wordAligned v) := rfl

/-- A write of a register other than R15 is a write of one physical register. -/
theorem State.setRegOf_eq (s : State) (m : Mode) {n : Reg} {p : PReg} (v : Word) (h : m.bank n = some p) :
    s.setRegOf m n v = s.withRegs (s.regs.set p v) := by
  simp [State.setRegOf, h]

/-- What a register write can do: change the registers, or the PC when the number is 15, and nothing else. -/
theorem State.setRegOf_cases (s : State) (m : Mode) (n : Reg) (v : Word) :
    (∃ p, m.bank n = some p ∧ s.setRegOf m n v = s.withRegs (s.regs.set p v)) ∨
    (n = 15#4 ∧ s.setRegOf m n v = s.withPc (wordAligned v)) := by
  cases h : m.bank n with
  | some p => exact .inl ⟨p, rfl, by simp [State.setRegOf, h]⟩
  | none => exact .inr ⟨(Mode.bank_eq_none m n).1 h, by simp [State.setRegOf, h]⟩

@[simp] theorem State.setRegOf_cpsr (s : State) (m : Mode) (n : Reg) (v : Word) :
    (s.setRegOf m n v).cpsr = s.cpsr := by
  unfold State.setRegOf; split <;> rfl

@[simp] theorem State.setRegOf_spsr (s : State) (m : Mode) (n : Reg) (v : Word) :
    (s.setRegOf m n v).spsr = s.spsr := by
  unfold State.setRegOf; split <;> rfl

@[simp] theorem State.setRegOf_cp15 (s : State) (m : Mode) (n : Reg) (v : Word) :
    (s.setRegOf m n v).cp15 = s.cp15 := by
  unfold State.setRegOf; split <;> rfl

@[simp] theorem State.setRegOf_mem (s : State) (m : Mode) (n : Reg) (v : Word) :
    (s.setRegOf m n v).mem = s.mem := by
  unfold State.setRegOf; split <;> rfl

@[simp] theorem State.setRegOf_stale (s : State) (m : Mode) (n : Reg) (v : Word) :
    (s.setRegOf m n v).stale = s.stale := by
  unfold State.setRegOf; split <;> rfl

@[simp] theorem State.setRegOf_oldMaps (s : State) (m : Mode) (n : Reg) (v : Word) :
    (s.setRegOf m n v).oldMaps = s.oldMaps := by
  unfold State.setRegOf; split <;> rfl

@[simp] theorem State.setRegOf_tlb (s : State) (m : Mode) (n : Reg) (v : Word) :
    (s.setRegOf m n v).tlb = s.tlb := by
  unfold State.setRegOf; split <;> rfl

@[simp] theorem State.setRegOf_bankHazard (s : State) (m : Mode) (n : Reg) (v : Word) :
    (s.setRegOf m n v).bankHazard = s.bankHazard := by
  unfold State.setRegOf; split <;> rfl

@[simp] theorem State.setRegOf_env (s : State) (m : Mode) (n : Reg) (v : Word) :
    (s.setRegOf m n v).env = s.env := by
  unfold State.setRegOf; split <;> rfl

@[simp] theorem State.setRegOf_plat (s : State) (m : Mode) (n : Reg) (v : Word) :
    (s.setRegOf m n v).plat = s.plat := by
  unfold State.setRegOf; split <;> rfl

@[simp] theorem State.setRegOf_draws (s : State) (m : Mode) (n : Reg) (v : Word) :
    (s.setRegOf m n v).draws = s.draws := by
  unfold State.setRegOf; split <;> rfl

@[simp] theorem State.setReg_cpsr (s : State) (n : Reg) (v : Word) : (s.setReg n v).cpsr = s.cpsr := by
  simp [State.setReg]

@[simp] theorem State.setReg_spsr (s : State) (n : Reg) (v : Word) : (s.setReg n v).spsr = s.spsr := by
  simp [State.setReg]

@[simp] theorem State.setReg_cp15 (s : State) (n : Reg) (v : Word) : (s.setReg n v).cp15 = s.cp15 := by
  simp [State.setReg]

@[simp] theorem State.setReg_mem (s : State) (n : Reg) (v : Word) : (s.setReg n v).mem = s.mem := by
  simp [State.setReg]

@[simp] theorem State.setReg_stale (s : State) (n : Reg) (v : Word) : (s.setReg n v).stale = s.stale := by
  simp [State.setReg]

@[simp] theorem State.setReg_oldMaps (s : State) (n : Reg) (v : Word) : (s.setReg n v).oldMaps = s.oldMaps := by
  simp [State.setReg]

@[simp] theorem State.setReg_tlb (s : State) (n : Reg) (v : Word) : (s.setReg n v).tlb = s.tlb := by
  simp [State.setReg]

@[simp] theorem State.setReg_bankHazard (s : State) (n : Reg) (v : Word) :
    (s.setReg n v).bankHazard = s.bankHazard := by
  simp [State.setReg]

@[simp] theorem State.setReg_env (s : State) (n : Reg) (v : Word) : (s.setReg n v).env = s.env := by
  simp [State.setReg]

@[simp] theorem State.setReg_plat (s : State) (n : Reg) (v : Word) : (s.setReg n v).plat = s.plat := by
  simp [State.setReg]

@[simp] theorem State.setReg_draws (s : State) (n : Reg) (v : Word) : (s.setReg n v).draws = s.draws := by
  simp [State.setReg]

/-- A register write leaves the PC, unless it writes R15. -/
theorem State.setRegOf_pc_of_ne (s : State) (m : Mode) {n : Reg} (v : Word) (h : n ≠ 15#4) :
    (s.setRegOf m n v).pc = s.pc := by
  obtain ⟨p, hp⟩ := Mode.bank_some m n h
  simp [State.setRegOf, hp]

/-- A register write leaves the PC, unless it writes R15. -/
theorem State.setReg_pc_of_ne (s : State) {n : Reg} (v : Word) (h : n ≠ 15#4) : (s.setReg n v).pc = s.pc :=
  State.setRegOf_pc_of_ne s _ v h

/-- A register other than R15 reads as it was written, in the same mode (10_state.md R21). -/
theorem State.readReg_setReg_same (s : State) {n : Reg} (v : Word) (h : n ≠ 15#4) :
    (s.setReg n v).readReg n = v := by
  obtain ⟨p, hp⟩ := Mode.bank_some s.cpsr.mode n h
  simp [State.readReg, State.readRegOf, State.setReg, State.setRegOf, hp]

/-- A write of one register leaves the others of the mode (10_state.md R21). -/
theorem State.readReg_setReg_of_ne (s : State) {n k : Reg} (v : Word) (hn : n ≠ 15#4) (h : k ≠ n) :
    (s.setReg n v).readReg k = s.readReg k := by
  obtain ⟨p, hp⟩ := Mode.bank_some s.cpsr.mode n hn
  simp only [State.readReg, State.readRegOf, State.setReg, State.setRegOf, hp, State.withRegs_cpsr,
    State.withRegs_regs]
  cases hk : s.cpsr.mode.bank k with
  | none => rfl
  | some q =>
    refine Regs.get_set_of_ne _ _ fun hqp => h ?_
    exact Mode.bank_injective _ _ _ (by rw [hk, hp, hqp])

/-- A register other than R15 does not change with the PC. -/
theorem State.readReg_withPc (s : State) (x : Word) {n : Reg} (h : n ≠ 15#4) :
    (s.withPc x).readReg n = s.readReg n := by
  obtain ⟨p, hp⟩ := Mode.bank_some s.cpsr.mode n h
  simp [State.readReg, State.readRegOf, hp]

/-- A register other than R15, as a mode sees it, is a physical register. -/
theorem State.readRegOf_eq (s : State) (m : Mode) {n : Reg} {p : PReg} (h : m.bank n = some p) :
    s.readRegOf m n = s.regs.get p := by
  simp [State.readRegOf, h]

end Sys2Proof.Machine
end

