-- ==== Sys2Proof/Laws/Ops.lean ====
section
/-! SUPPORT. For each shared operation, once, everything it can do: what a caller cites instead of unfolding it. -/

set_option Elab.async false

namespace Sys2Proof.Machine

/-! ### Moving on -/

/-- All that moving on can do. -/
theorem advance_next {s t : State} (h : advance s = .next t) : s.pc ≠ 0xFFFFFFFC#32 ∧ t = s.next4 := by
  unfold advance at h
  split at h
  · cases h
  · rename_i hp; exact ⟨hp, by cases h; rfl⟩

/-- When moving on goes on. -/
theorem advance_of_ne {s : State} (h : s.pc ≠ 0xFFFFFFFC#32) : advance s = .next s.next4 := by
  simp [advance, h, State.next4]

/-- All that an instruction under its condition can do. -/
theorem whenPassed_next {c : Cond} {s t : State} {k : Result} (h : whenPassed c s k = .next t) :
    (s.cpsr.flags.pass c = true ∧ k = .next t) ∨
    (s.cpsr.flags.pass c = false ∧ s.pc ≠ 0xFFFFFFFC#32 ∧ t = s.next4) := by
  unfold whenPassed at h
  cases hp : s.cpsr.flags.pass c
  · simp only [hp, Bool.false_eq_true, if_false] at h
    exact .inr ⟨rfl, advance_next h⟩
  · simp only [hp, if_true] at h
    exact .inl ⟨rfl, h⟩

/-- An instruction whose condition holds. -/
theorem whenPassed_of_pass {c : Cond} {s : State} {k : Result} (h : s.cpsr.flags.pass c = true) :
    whenPassed c s k = k := by
  simp [whenPassed, h]

/-- An instruction whose condition fails. -/
theorem whenPassed_of_fail {c : Cond} {s : State} {k : Result} (h : s.cpsr.flags.pass c = false) :
    whenPassed c s k = advance s := by
  simp [whenPassed, h]

/-- All that a check of the operands can do. -/
theorem allowing_next {ok : Bool} {r : Refusal} {k : Result} {t : State} (h : allowing ok r k = .next t) :
    ok = true ∧ k = .next t := by
  cases ok
  · cases h
  · exact ⟨rfl, h⟩

/-- A check that succeeds. -/
theorem allowing_of_ok {ok : Bool} {r : Refusal} {k : Result} (h : ok = true) : allowing ok r k = k := by
  simp [allowing, h]

/-- A check that fails. -/
theorem allowing_of_not {ok : Bool} {r : Refusal} {k : Result} (h : ok = false) :
    allowing ok r k = .refused r := by
  simp [allowing, h]

/-- All that a jump can do. -/
theorem jump_next {target : Word} {s t : State} (h : jump target s = .next t) :
    t = s.withPc (wordAligned target) := by
  cases h; rfl

/-! ### Exceptions -/

@[simp] theorem takeException_pc (e : Exc) (ret : Word) (s : State) : (takeException e ret s).pc = e.vector := rfl

@[simp] theorem takeException_regs (e : Exc) (ret : Word) (s : State) :
    (takeException e ret s).regs = s.regs.set e.mode.bank14 ret := rfl

@[simp] theorem takeException_spsr (e : Exc) (ret : Word) (s : State) :
    (takeException e ret s).spsr = s.spsr.set e.mode s.cpsr.saved := rfl

@[simp] theorem takeException_cpsr (e : Exc) (ret : Word) (s : State) :
    (takeException e ret s).cpsr =
      { flags := s.cpsr.flags, i := true, f := s.cpsr.f || e.setsF, mode := e.mode } := rfl

@[simp] theorem takeException_cp15 (e : Exc) (ret : Word) (s : State) : (takeException e ret s).cp15 = s.cp15 := rfl

@[simp] theorem takeException_mem (e : Exc) (ret : Word) (s : State) : (takeException e ret s).mem = s.mem := rfl

@[simp] theorem takeException_stale (e : Exc) (ret : Word) (s : State) :
    (takeException e ret s).stale = s.stale := rfl

@[simp] theorem takeException_oldMaps (e : Exc) (ret : Word) (s : State) :
    (takeException e ret s).oldMaps = s.oldMaps := rfl

@[simp] theorem takeException_tlb (e : Exc) (ret : Word) (s : State) : (takeException e ret s).tlb = s.tlb := rfl

@[simp] theorem takeException_bankHazard (e : Exc) (ret : Word) (s : State) :
    (takeException e ret s).bankHazard = s.bankHazard := rfl

@[simp] theorem takeException_env (e : Exc) (ret : Word) (s : State) : (takeException e ret s).env = s.env := rfl

@[simp] theorem takeException_plat (e : Exc) (ret : Word) (s : State) : (takeException e ret s).plat = s.plat := rfl

@[simp] theorem takeException_draws (e : Exc) (ret : Word) (s : State) :
    (takeException e ret s).draws = s.draws := rfl

/-- All that a return from an exception can do (60_exceptions.md R465). -/
theorem returnTo_next {target : Word} {s t : State} (h : returnTo target s = .next t) :
    ∃ p c, s.spsrNow = some p ∧ p.restored = some c ∧ t = (s.withCpsr c).withPc (wordAligned target) := by
  unfold returnTo at h
  cases hp : s.spsrNow with
  | none => simp [hp] at h
  | some p =>
    cases hc : p.restored with
    | none => simp [hp, hc] at h
    | some c => simp only [hp, hc] at h; exact ⟨p, c, rfl, hc, by cases h; rfl⟩

/-- A return from an exception that goes through. -/
theorem returnTo_of_some {target : Word} {s : State} {p : Spsr} {c : Cpsr} (hp : s.spsrNow = some p)
    (hc : p.restored = some c) : returnTo target s = .next ((s.withCpsr c).withPc (wordAligned target)) := by
  simp [returnTo, hp, hc]

/-- A Data Abort always goes on. -/
theorem dataAbort_eq (f : Option FaultStatus) (far : Word) (s : State) :
    dataAbort f far s = .next (takeException .dataAbort (s.pc + 8#32) (faultRecorded f far s)) := by
  cases f <;> rfl

/-- All that a Data Abort can do. -/
theorem dataAbort_next {f : Option FaultStatus} {far : Word} {s t : State} (h : dataAbort f far s = .next t) :
    t = takeException .dataAbort (s.pc + 8#32) (faultRecorded f far s) := by
  rw [dataAbort_eq] at h; cases h; rfl

/-- All that an alignment fault can do. -/
theorem alignmentAbort_next {far : Word} {s t : State} (h : alignmentAbort far s = .next t) :
    t = takeException .dataAbort (s.pc + 8#32) (s.drawn.recordFault (alignmentStatus s) far) :=
  dataAbort_next h

/-! ### Accesses -/

/-- When an access followed by more is done. -/
theorem Access.bind_eq_ok {α β : Type} {x : Access α} {k : α → State → Access β} {v : β} {t : State} :
    x.bind k = .ok v t ↔ ∃ u s, x = .ok u s ∧ k u s = .ok v t := by
  cases x <;> simp [Access.bind]

/-- When an access followed by more aborts. -/
theorem Access.bind_eq_abort {α β : Type} {x : Access α} {k : α → State → Access β} {f : Option FaultStatus}
    {t : State} : x.bind k = .abort f t ↔ x = .abort f t ∨ ∃ u s, x = .ok u s ∧ k u s = .abort f t := by
  cases x <;> simp [Access.bind]

/-- Nothing changed is a change in the TLB and the draws only. -/
theorem SameButLookup.refl (s : State) : SameButLookup s s := rfl

/-- Two such changes are one. -/
theorem SameButLookup.trans {s t u : State} (h : SameButLookup s t) (h' : SameButLookup t u) :
    SameButLookup s u := by
  unfold SameButLookup at *
  rw [h', h]; rfl

/-- A draw is such a change. -/
theorem SameButLookup.drawn (s : State) : SameButLookup s s.drawn := rfl

/-- A change of the TLB is such a change. -/
theorem SameButLookup.withTlb (s : State) (x : List TlbEntry) : SameButLookup s (s.withTlb x) := rfl

theorem SameButLookup.regs {s t : State} (h : SameButLookup s t) : t.regs = s.regs := by rw [h]; rfl
theorem SameButLookup.pc {s t : State} (h : SameButLookup s t) : t.pc = s.pc := by rw [h]; rfl
theorem SameButLookup.cpsr {s t : State} (h : SameButLookup s t) : t.cpsr = s.cpsr := by rw [h]; rfl
theorem SameButLookup.spsr {s t : State} (h : SameButLookup s t) : t.spsr = s.spsr := by rw [h]; rfl
theorem SameButLookup.cp15 {s t : State} (h : SameButLookup s t) : t.cp15 = s.cp15 := by rw [h]; rfl
theorem SameButLookup.mem {s t : State} (h : SameButLookup s t) : t.mem = s.mem := by rw [h]; rfl
theorem SameButLookup.stale {s t : State} (h : SameButLookup s t) : t.stale = s.stale := by rw [h]; rfl
theorem SameButLookup.oldMaps {s t : State} (h : SameButLookup s t) : t.oldMaps = s.oldMaps := by rw [h]; rfl
theorem SameButLookup.bankHazard {s t : State} (h : SameButLookup s t) : t.bankHazard = s.bankHazard := by
  rw [h]; rfl
theorem SameButLookup.env {s t : State} (h : SameButLookup s t) : t.env = s.env := by rw [h]; rfl
theorem SameButLookup.plat {s t : State} (h : SameButLookup s t) : t.plat = s.plat := by rw [h]; rfl

/-- An access that starts from `s` leaves, where it leaves a state, one that differs in the TLB and the draws only, and
its TLB still holds mapping descriptors if that of `s` did. -/
def Within {α : Type} (s : State) (x : Access α) : Prop :=
  match x with
  | .ok _ t => SameButLookup s t ∧ ((∀ e ∈ s.tlb, e.wf = true) → ∀ e ∈ t.tlb, e.wf = true)
  | .abort _ t => SameButLookup s t ∧ ((∀ e ∈ s.tlb, e.wf = true) → ∀ e ∈ t.tlb, e.wf = true)
  | .stuck _ => True
  | .refused _ => True

theorem Within.bind {α β : Type} {s : State} {x : Access α} {k : α → State → Access β} (hx : Within s x)
    (hk : ∀ v t, x = .ok v t → Within t (k v t)) : Within s (x.bind k) := by
  cases x with
  | ok v t =>
    have h1 := hk v t rfl
    simp only [Access.bind]
    revert h1
    cases k v t with
    | ok u w => exact fun h => ⟨hx.1.trans h.1, fun hs => h.2 (hx.2 hs)⟩
    | abort f w => exact fun h => ⟨hx.1.trans h.1, fun hs => h.2 (hx.2 hs)⟩
    | stuck r => exact fun _ => trivial
    | refused r => exact fun _ => trivial
  | abort f t => exact hx
  | stuck r => trivial
  | refused r => trivial

theorem Within.ok_self {α : Type} (s : State) (v : α) : Within s (.ok v s : Access α) := ⟨.refl s, id⟩

theorem Within.mmuFault {α : Type} (code : BitVec 4) (d : Option (BitVec 4)) (s : State) :
    Within s (mmuFault code d s : Access α) := by
  cases d
  · exact ⟨.drawn s, id⟩
  · exact ⟨.refl s, id⟩

/-- All that a table read can do. -/
theorem Within.tableRead (code : BitVec 4) (d : Option (BitVec 4)) (pa : Word) (s : State) :
    Within s (tableRead code d pa s) := by
  unfold Machine.tableRead
  split
  · exact Within.mmuFault _ _ _
  · split
    · trivial
    · trivial
    · exact Within.ok_self _ _

/-- All that the walk can do. -/
theorem Within.walk (va : Word) (s : State) : Within s (walk va s) := by
  refine Within.bind (Within.tableRead _ _ _ _) fun l1 t _ => ?_
  split
  · exact Within.mmuFault _ _ _
  · refine Within.bind (Within.tableRead _ _ _ _) fun l2 u _ => ?_
    split
    · exact Within.mmuFault _ _ _
    · exact Within.ok_self _ _
    · exact Within.ok_self _ _
    · trivial
  · exact Within.ok_self _ _
  · trivial

/-- The walk gives an entry that holds the descriptors of its kind. -/
theorem walk_wf {va : Word} {s t : State} {e : TlbEntry} (h : walk va s = .ok e t) : e.wf = true := by
  have key : ∀ (x : BitVec 2) (n : Nat), x.toNat = n → x = BitVec.ofNat 2 n := by
    intro x n hx; subst hx; simp
  unfold Machine.walk at h
  rw [Access.bind_eq_ok] at h
  obtain ⟨l1, u, _, h⟩ := h
  split at h
  · simp [Machine.mmuFault] at h
  · rename_i h1
    unfold walkSecond at h
    rw [Access.bind_eq_ok] at h
    obtain ⟨l2, w, _, h⟩ := h
    split at h
    · simp [Machine.mmuFault] at h
    · rename_i h2
      cases h
      simp [TlbEntry.wf, key _ _ h1, key _ _ h2]
    · rename_i h2
      cases h
      simp [TlbEntry.wf, key _ _ h1, key _ _ h2]
    · cases h
  · rename_i h1
    cases h
    simp [TlbEntry.wf, key _ _ h1]
  · cases h

/-- All that a look in the TLB can do. -/
theorem Within.tlbLookup (va : Word) (s : State) : Within s (tlbLookup va s) := by
  unfold Machine.tlbLookup
  split
  · exact Within.ok_self _ _
  · refine Within.bind (Within.walk _ _) fun e t he => ?_
    refine ⟨.withTlb _ _, fun hs e' he' => ?_⟩
    simp only [State.withTlb_tlb, List.mem_append, List.mem_singleton] at he'
    rcases he' with he' | rfl
    · exact hs _ he'
    · exact walk_wf he

/-- All that the domain and permission checks can do. -/
theorem Within.checkAccess (e : TlbEntry) (kind : AccessKind) (priv : Bool) (va : Word) (s : State) :
    Within s (checkAccess e kind priv va s) := by
  unfold Machine.checkAccess
  simp only
  split
  · exact Within.ok_self _ _
  · split
    · exact Within.ok_self _ _
    · exact Within.mmuFault _ _ _
    · trivial
  · exact Within.mmuFault _ _ _

/-- All that a translation can do. -/
theorem Within.translate (kind : AccessKind) (priv : Bool) (va : Word) (s : State) :
    Within s (translate kind priv va s) := by
  unfold Machine.translate
  split
  · exact Within.bind (Within.tlbLookup _ _) fun e t _ => Within.checkAccess _ _ _ _ _
  · exact Within.ok_self _ _

/-- All that steps 1 to 3 of an access can do: the TLB and the draws change, nothing else. -/
theorem Within.reach (kind : AccessKind) (priv : Bool) (n : Nat) (va : Word) (s : State) :
    Within s (reach kind priv n va s) := by
  refine Within.bind (Within.translate _ _ _ _) fun t u _ => ?_
  split
  · unfold externalAbort
    split
    · exact ⟨.refl _, id⟩
    · exact ⟨.drawn _, id⟩
  · split
    · trivial
    · trivial
    · exact Within.ok_self _ _
    · exact Within.ok_self _ _

/-- With the MMU off, no abort and RAM there, an access goes to its own address and changes nothing. -/
theorem reach_plain {kind : AccessKind} {priv : Bool} {n : Nat} {va : Word} {s : State}
    (hm : s.cp15.control.m = false) (ha : s.aborted va n kind = false) (hk : s.kindAt va n = some .ram) :
    reach kind priv n va s = .ok { pa := va, rom := false } s := by
  simp [Machine.reach, Machine.translate, hm, Access.bind, ha, hk]

/-- All that a word read can do. -/
theorem Within.loadWord (kind : AccessKind) (priv : Bool) (a : Word) (s : State) : Within s (loadWord kind priv a s) :=
  Within.bind (Within.reach _ _ _ _ _) fun _ _ _ => Within.ok_self _ _

/-- All that a half-word read can do. -/
theorem Within.loadHalf (priv : Bool) (a : Word) (s : State) : Within s (loadHalf priv a s) :=
  Within.bind (Within.reach _ _ _ _ _) fun _ _ _ => Within.ok_self _ _

/-- All that a byte read can do. -/
theorem Within.loadByte (kind : AccessKind) (priv : Bool) (a : Word) (s : State) : Within s (loadByte kind priv a s) :=
  Within.bind (Within.reach _ _ _ _ _) fun _ _ _ => Within.ok_self _ _

/-- Where a word write goes, and what it leaves. -/
theorem storeWord_ok {priv : Bool} {a v : Word} {s t : State} (h : storeWord priv a v s = .ok () t) :
    ∃ r u, reach .write priv 4 (wordAligned a) s = .ok r u ∧
      t = u.stored r (u.mem.writeWord (wordCell r.pa) v) := by
  unfold storeWord at h
  rw [Access.bind_eq_ok] at h
  obtain ⟨r, u, h1, h2⟩ := h
  exact ⟨r, u, h1, by cases h2; rfl⟩

/-- Where a half-word write goes, and what it leaves. -/
theorem storeHalf_ok {priv : Bool} {a : Word} {v : BitVec 16} {s t : State} (h : storeHalf priv a v s = .ok () t) :
    ∃ r u, reach .write priv 2 a s = .ok r u ∧
      t = u.stored r (u.mem.writeHalf (halfCell u.cp15.control.b r.pa) v) := by
  unfold storeHalf at h
  rw [Access.bind_eq_ok] at h
  obtain ⟨r, u, h1, h2⟩ := h
  exact ⟨r, u, h1, by cases h2; rfl⟩

/-- Where a byte write goes, and what it leaves. -/
theorem storeByte_ok {priv : Bool} {a : Word} {v : Byte} {s t : State} (h : storeByte priv a v s = .ok () t) :
    ∃ r u, reach .write priv 1 a s = .ok r u ∧
      t = u.stored r (u.mem.write (byteCell u.cp15.control.b r.pa) v) := by
  unfold storeByte at h
  rw [Access.bind_eq_ok] at h
  obtain ⟨r, u, h1, h2⟩ := h
  exact ⟨r, u, h1, by cases h2; rfl⟩

/-- All that an access inside an instruction can do. -/
theorem Access.run_next {α : Type} {x : Access α} {far : Word} {k : α → State → Result} {t : State}
    (h : x.run far k = .next t) :
    (∃ v u, x = .ok v u ∧ k v u = .next t) ∨
    (∃ f u, x = .abort f u ∧ t = takeException .dataAbort (u.pc + 8#32) (faultRecorded f far u)) := by
  cases x with
  | ok v u => exact .inl ⟨v, u, rfl, h⟩
  | abort f u => exact .inr ⟨f, u, rfl, dataAbort_next h⟩
  | stuck r => cases h
  | refused r => cases h

/-- An access that is done. -/
theorem Access.run_ok {α : Type} {x : Access α} {far : Word} {k : α → State → Result} {v : α} {u : State}
    (h : x = .ok v u) : x.run far k = k v u := by
  rw [h]; rfl

/-- A change of the mapping puts at most the mapping of before on record (48_swap_swi_imb.md R383). -/
theorem State.remapped_eq (s : State) (c : Bool) :
    s.remapped c = s.withOldMaps (if c then s.mapping :: s.oldMaps else s.oldMaps) := by
  cases c <;> rfl

@[simp] theorem State.remapped_stale (s : State) (c : Bool) : (s.remapped c).stale = s.stale := by cases c <;> rfl

@[simp] theorem State.remapped_mem (s : State) (c : Bool) : (s.remapped c).mem = s.mem := by cases c <;> rfl

/-- A store leaves all but memory and what awaits a barrier. -/
theorem State.stored_eq (s : State) (r : Reached) (m : Memory) :
    s.stored r m =
      ((s.withMem (s.stored r m).mem).withStale (s.stored r m).stale).withOldMaps (s.stored r m).oldMaps := by
  unfold State.stored
  split
  · rfl
  · rw [State.remapped_eq]; rfl

/-- The memory after a store. -/
theorem State.stored_mem (s : State) (r : Reached) (m : Memory) :
    (s.stored r m).mem = if r.rom then s.mem else m := by
  unfold State.stored
  split <;> rfl

/-- The mappings on record after a store: that of before too, where the word is one of its tables (48_swap_swi_imb.md
R383). -/
theorem State.stored_oldMaps (s : State) (r : Reached) (m : Memory) :
    (s.stored r m).oldMaps = if !r.rom && remapsAt s r.pa then s.mapping :: s.oldMaps else s.oldMaps := by
  unfold State.stored
  cases r.rom <;> cases h : remapsAt s r.pa <;> simp [State.remapped, State.markStale]

/-- The words of the coherence set after a store. -/
theorem State.stored_stale (s : State) (r : Reached) (m : Memory) :
    ∀ w ∈ (s.stored r m).stale, w ∈ s.stale ∨ w = { pa := wordAligned r.pa, covered := [] } := by
  intro w hw
  unfold State.stored at hw
  split at hw
  · exact .inl hw
  · rcases List.mem_cons.mp hw with h | h
    · exact .inr h
    · exact .inl (by simpa using (List.mem_filter.mp h).1)

/-- A word written into RAM awaits a barrier, whatever the address it is fetched from (20_memory.md R114). -/
theorem staleAt_stored (s : State) {r : Reached} (m : Memory) (h : r.rom = false) (va : Word) :
    staleAt (s.stored r m) va (wordAligned r.pa) = true := by
  simp [staleAt, State.stored, h, State.markStale]

/-- Another word awaits one as before (20_memory.md R114). -/
theorem staleAt_stored_of_ne (s : State) (r : Reached) (m : Memory) (va : Word) {pa : Word}
    (h : pa ≠ wordAligned r.pa) : staleAt (s.stored r m) va pa = staleAt s va pa := by
  unfold State.stored
  split
  · rfl
  · simp only [staleAt, State.markStale, State.withStale_stale, State.withMem_stale, State.remapped_stale, List.any_cons,
      List.any_filter]
    rw [show (wordAligned r.pa == pa) = false by simpa using fun e => h e.symm, Bool.false_and, Bool.false_or]
    refine congrArg (fun f => List.any s.stale f) (funext fun w => ?_)
    by_cases hw : w.pa = pa
    · simp [hw, h]
    · simp [hw]

/-! ### Barriers and mappings -/

/-- A barrier over a range leaves those words that awaited one and are fetched from outside the range (48_swap_swi_imb.md
R381, R382). -/
theorem staleAt_barrierOver (s : State) (x : AddrRange) (va pa : Word) :
    staleAt (s.barrierOver x) va pa = (staleAt s va pa && !x.meets va) := by
  change ((s.stale.map fun w => ({ w with covered := x :: w.covered } : StaleWord)).any _) = _
  rw [List.any_map]
  unfold staleAt
  induction s.stale with
  | nil => rfl
  | cons w ws ih =>
    rw [List.any_cons, ih, List.any_cons]
    simp only [Function.comp_apply, List.any_cons]
    cases w.pa == pa <;> cases x.meets va <;> simp

/-- After a barrier over the whole address space no word awaits one (48_swap_swi_imb.md R380, R382). -/
@[simp] theorem staleAt_barrier (s : State) (va pa : Word) : staleAt s.barrier va pa = false := rfl

/-- The written-back base: a register write or nothing. -/
theorem State.writeBack_cases (s : State) (ix : Indexing) (rn : Reg) (offaddr : Word) :
    (writesBack ix = true ∧ s.writeBack ix rn offaddr = s.setReg rn offaddr) ∨
    (writesBack ix = false ∧ s.writeBack ix rn offaddr = s) := by
  unfold State.writeBack
  cases h : writesBack ix
  · exact .inr ⟨rfl, rfl⟩
  · exact .inl ⟨rfl, rfl⟩

@[simp] theorem State.drawn_eq (s : State) : s.drawn = s.withDraws (s.draws + 1) := rfl

@[simp] theorem State.withFlags_eq (s : State) (fl : Flags) :
    s.withFlags fl = s.withCpsr { s.cpsr with flags := fl } := rfl

/-- A register write keeps every register but its own. -/
theorem RegsKept.setReg {rs : List Reg} {s t : State} (hr : RegsKept rs s t) (hm : t.cpsr.mode = s.cpsr.mode) {n : Reg}
    (v : Word) (h : n ≠ 15#4) (hn : n ∈ rs) : RegsKept rs s (t.setReg n v) := by
  obtain ⟨p, hp⟩ := Mode.bank_some s.cpsr.mode n h
  intro q hq
  have hne : q ≠ p := by rintro rfl; exact hq n hn hp
  rw [State.setReg, State.setRegOf_eq _ _ v (by rw [hm]; exact hp)]
  simp [Regs.get_set_of_ne _ _ hne, hr q hq]

/-- What an exception entry does, from a state that has the registers, the CPSR and the SPSRs of `s`. -/
theorem takeException_entered (e : Exc) (ret : Word) {s t : State} (hr : t.regs = s.regs) (hc : t.cpsr = s.cpsr)
    (hs : t.spsr = s.spsr) : Entered e ret s (takeException e ret t) where
  pc := rfl
  link := by simp
  regs := fun p hp => by simp [Regs.get_set_of_ne _ _ hp, hr]
  saved := by rw [takeException_spsr, hc]; cases e <;> rfl
  spsrs := fun m hm => by
    rw [takeException_spsr, hs]
    cases e <;> cases m <;> first | rfl | exact absurd rfl hm
  flags := by simp [hc]
  i := rfl
  f := by rw [takeException_cpsr, hc]; cases e <;> simp [Exc.setsF]
  mode := rfl

end Sys2Proof.Machine
end

