-- ==== Sys2Proof/Laws/Block.lean ====
section
/-! SUPPORT. What the transfers of LDM and STM can do, once for each operation (47_block_data_transfer.md R341 to R354). -/

set_option Elab.async false

namespace Sys2Proof.Machine

/-! ### Lists of registers -/

/-- The registers of a list are those it names. -/
theorem mem_regsOf (list : BitVec 16) (r : Reg) : r ∈ regsOf list ↔ inList list r = true := by
  have h : ∀ r : Reg, r ∈ allRegs := by decide
  simp [regsOf, List.mem_filter, inList, h]

/-- No register stands twice in a list. -/
theorem regsOf_nodup (list : BitVec 16) : (regsOf list).Nodup := List.Nodup.filter _ (by decide)

/-! ### Loads -/

/-- All that a word read that is done leaves. -/
theorem loadWord_ok {kind : AccessKind} {priv : Bool} {a v : Word} {s t : State}
    (h : loadWord kind priv a s = .ok v t) : SameButLookup s t := by
  have := Within.loadWord kind priv a s
  rw [h] at this
  exact this.1

/-- All that a word read that aborts leaves. -/
theorem loadWord_abort {kind : AccessKind} {priv : Bool} {a : Word} {f : Option FaultStatus} {s t : State}
    (h : loadWord kind priv a s = .abort f t) : SameButLookup s t := by
  have := Within.loadWord kind priv a s
  rw [h] at this
  exact this.1

/-- All that the reads of an LDM can do when they are done. -/
theorem readBlock_done {rs : List Reg} {a : Word} {s t : State} {vs : List Loaded}
    (h : readBlock rs a s = .done vs t) : SameButLookup s t ∧ vs.map (·.reg) = rs := by
  induction rs generalizing a s t vs with
  | nil => cases h; exact ⟨.refl _, rfl⟩
  | cons r rs ih =>
    unfold readBlock at h
    cases hl : loadWord .read s.privileged a s with
    | ok v u =>
      simp only [hl] at h
      cases hb : readBlock rs (a + 4#32) u with
      | done ws w =>
        rw [hb] at h
        cases h
        exact ⟨(loadWord_ok hl).trans (ih hb).1, by simp [(ih hb).2]⟩
      | aborted _ _ _ _ => rw [hb] at h; cases h
      | stuck _ => rw [hb] at h; cases h
      | refused _ => rw [hb] at h; cases h
    | abort f u => rw [hl] at h; cases h
    | stuck x => rw [hl] at h; cases h
    | refused x => rw [hl] at h; cases h

/-- All that the reads of an LDM leave when one of them aborts. -/
theorem readBlock_aborted {rs : List Reg} {a far : Word} {f : Option FaultStatus} {s t : State} {vs : List Loaded}
    (h : readBlock rs a s = .aborted vs far f t) : SameButLookup s t := by
  induction rs generalizing a s t vs with
  | nil => cases h
  | cons r rs ih =>
    unfold readBlock at h
    cases hl : loadWord .read s.privileged a s with
    | ok v u =>
      simp only [hl] at h
      cases hb : readBlock rs (a + 4#32) u with
      | done ws w => rw [hb] at h; cases h
      | aborted _ _ _ _ => rw [hb] at h; cases h; exact (loadWord_ok hl).trans (ih hb)
      | stuck _ => rw [hb] at h; cases h
      | refused _ => rw [hb] at h; cases h
    | abort f u => rw [hl] at h; cases h; exact loadWord_abort hl
    | stuck x => rw [hl] at h; cases h
    | refused x => rw [hl] at h; cases h

/-- The two states differ in the general registers only. -/
def SameButRegs (s t : State) : Prop := t = s.withRegs t.regs

/-- Nothing changed is a change of registers only. -/
theorem SameButRegs.refl (s : State) : SameButRegs s s := rfl

/-- Two such changes are one. -/
theorem SameButRegs.trans {s t u : State} (h : SameButRegs s t) (h' : SameButRegs t u) : SameButRegs s u := by
  unfold SameButRegs at *
  rw [h', h]; rfl

/-- A write of a register other than R15 is such a change. -/
theorem SameButRegs.setRegOf (s : State) (m : Mode) {n : Reg} (v : Word) (h : n ≠ 15#4) :
    SameButRegs s (s.setRegOf m n v) := by
  obtain ⟨p, hp⟩ := Mode.bank_some m n h
  rw [State.setRegOf_eq _ _ _ hp]; rfl

/-- All that writing the loaded registers can do: each register of the list has its value, no other changes. -/
theorem writeLoaded_all (m : Mode) (vs : List Loaded) (s : State) :
    SameButRegs s (writeLoaded m vs s) ∧
    (∀ p, (∀ x ∈ vs, isPc x.reg = true ∨ m.bank x.reg ≠ some p) →
      (writeLoaded m vs s).regs.get p = s.regs.get p) ∧
    ((vs.map (·.reg)).Nodup → ∀ x ∈ vs, isPc x.reg = false → ∀ p, m.bank x.reg = some p →
      (writeLoaded m vs s).regs.get p = x.value) := by
  induction vs generalizing s with
  | nil => exact ⟨rfl, fun _ _ => rfl, by simp⟩
  | cons x xs ih =>
    unfold writeLoaded
    obtain ⟨h1, h2, h3⟩ := ih (if isPc x.reg then s else s.setRegOf m x.reg x.value)
    refine ⟨?_, ?_, ?_⟩
    · refine SameButRegs.trans ?_ h1
      split
      · rfl
      · rename_i h; exact .setRegOf _ _ _ (by simpa [isPc] using h)
    · intro p hp
      rw [h2 p fun y hy => hp y (by simp [hy])]
      split
      · rfl
      · rename_i h
        obtain ⟨q, hq⟩ := Mode.bank_some m x.reg (by simpa [isPc] using h)
        have hne := hp x (by simp)
        rw [hq] at hne
        simp only [h] at hne
        rw [State.setRegOf_eq _ _ _ hq]
        exact Regs.get_set_of_ne _ _ (by simpa [eq_comm] using hne)
    · intro hnd y hy hpc p hp
      simp only [List.map_cons, List.nodup_cons] at hnd
      rcases List.mem_cons.1 hy with rfl | hy
      · rw [h2 p ?_]
        · rw [if_neg (by simp [hpc]), State.setRegOf_eq _ _ _ hp]; simp
        · intro z hz
          refine .inr fun h => hnd.1 ?_
          rw [← Mode.bank_injective m z.reg y.reg (by rw [h, hp])]
          exact List.mem_map_of_mem hz
      · exact h3 hnd.2 y hy hpc p hp

/-- All that an aborted LDM leaves in the registers of its completed transfers: the base as it was, each other register as
it was or loaded (47_block_data_transfer.md R353). -/
theorem leaveLoaded_all (m : Mode) (base : Option PReg) (vs : List Loaded) (s : State) :
    (∃ d r, leaveLoaded m base vs s = (s.withRegs r).withDraws d) ∧
    (∀ p, some p = base → (leaveLoaded m base vs s).regs.get p = s.regs.get p) ∧
    (∀ p, (leaveLoaded m base vs s).regs.get p = s.regs.get p ∨
      ∃ x ∈ vs, m.bank x.reg = some p ∧ (leaveLoaded m base vs s).regs.get p = x.value) := by
  induction vs generalizing s with
  | nil => exact ⟨⟨s.draws, s.regs, rfl⟩, fun _ _ => rfl, fun _ => .inl rfl⟩
  | cons x xs ih =>
    unfold leaveLoaded
    split
    · obtain ⟨h1, h2, h3⟩ := ih s
      refine ⟨h1, h2, fun p => ?_⟩
      rcases h3 p with h | ⟨y, hy, h, h'⟩
      · exact .inl h
      · exact .inr ⟨y, by simp [hy], h, h'⟩
    · rename_i hc
      simp only [Bool.or_eq_true, beq_iff_eq, not_or] at hc
      split
      · obtain ⟨q, hq⟩ := Mode.bank_some m x.reg (by simpa [isPc] using hc.1)
        rw [State.setRegOf_eq _ _ _ hq]
        obtain ⟨⟨d, r, h1⟩, h2, h3⟩ := ih (s.drawn.withRegs (s.drawn.regs.set q x.value))
        refine ⟨⟨d, r, by rw [h1]; rfl⟩, fun p hp => ?_, fun p => ?_⟩
        · rw [h2 p hp]
          have hne : p ≠ q := by rintro rfl; rw [hp] at hq; exact hc.2 hq
          simp [Regs.get_set_of_ne _ _ hne]
        · rcases h3 p with h | ⟨y, hy, h, h'⟩
          · by_cases hpq : p = q
            · subst hpq; exact .inr ⟨x, by simp, hq, by rw [h]; simp⟩
            · left; rw [h]; simp [Regs.get_set_of_ne _ _ hpq]
          · exact .inr ⟨y, by simp [hy], h, h'⟩
      · obtain ⟨⟨d, r, h1⟩, h2, h3⟩ := ih s.drawn
        refine ⟨⟨d, r, by rw [h1]; rfl⟩, h2, fun p => ?_⟩
        rcases h3 p with h | ⟨y, hy, h, h'⟩
        · exact .inl h
        · exact .inr ⟨y, by simp [hy], h, h'⟩

/-- All that the writeback of a block transfer can do. -/
theorem blockWriteBack_all (bm : BlockMode) {rn : Reg} (list : BitVec 16) (base : Word) (s : State) {p : PReg}
    (hp : s.cpsr.mode.bank rn = some p) :
    SameButRegs s (blockWriteBack bm rn list base s) ∧
    (bm.w = true → (blockWriteBack bm rn list base s).regs.get p = blockWritten bm base list) ∧
    (∀ q, (bm.w = true → q ≠ p) → (blockWriteBack bm rn list base s).regs.get q = s.regs.get q) := by
  unfold blockWriteBack
  cases bm.w
  · exact ⟨rfl, by simp, fun _ _ => rfl⟩
  · simp only [if_true]
    rw [State.setReg, State.setRegOf_eq _ _ _ hp]
    exact ⟨rfl, fun _ => by simp, fun q hq => by simp [Regs.get_set_of_ne _ _ (hq trivial)]⟩

/-! ### Stores -/

/-- The two states differ in memory, what awaits a barrier, the TLB and the draws only: what stores may change. -/
def SameButStores (s t : State) : Prop :=
  t = ((((s.withMem t.mem).withStale t.stale).withOldMaps t.oldMaps).withTlb t.tlb).withDraws t.draws

/-- Nothing changed is such a change. -/
theorem SameButStores.refl (s : State) : SameButStores s s := by cases s; rfl

/-- Two such changes are one. -/
theorem SameButStores.trans {s t u : State} (h : SameButStores s t) (h' : SameButStores t u) : SameButStores s u := by
  unfold SameButStores at *
  refine h'.trans ?_
  rw [h]; rfl

/-- What an access changes beside memory is such a change. -/
theorem SameButStores.lookup {s t : State} (h : SameButLookup s t) : SameButStores s t := by
  unfold SameButStores
  rw [h]; rfl

/-- A draw is such a change. -/
theorem SameButStores.drawn (s : State) : SameButStores s s.drawn := by cases s; rfl

/-- All that a word write that is done leaves. -/
theorem SameButStores.storeWord {priv : Bool} {a v : Word} {s t : State} (h : storeWord priv a v s = .ok () t) :
    SameButStores s t := by
  obtain ⟨r, u, h1, rfl⟩ := storeWord_ok h
  have hw := Within.reach .write priv 4 (wordAligned a) s
  rw [h1] at hw
  refine (SameButStores.lookup hw.1).trans ?_
  unfold SameButStores
  have h2 := State.stored_eq u r (u.mem.writeWord (wordCell r.pa) v)
  generalize u.stored r (u.mem.writeWord (wordCell r.pa) v) = x at h2 ⊢
  have ht : x.tlb = u.tlb := by rw [h2]; rfl
  have hd : x.draws = u.draws := by rw [h2]; rfl
  rw [ht, hd]
  exact h2

/-- All that a word write that aborts leaves. -/
theorem storeWord_abort {priv : Bool} {a v : Word} {f : Option FaultStatus} {s t : State}
    (h : storeWord priv a v s = .abort f t) : SameButLookup s t := by
  unfold Machine.storeWord at h
  rw [Access.bind_eq_abort] at h
  rcases h with h | ⟨_, _, _, h⟩
  · have hw := Within.reach .write priv 4 (wordAligned a) s
    rw [h] at hw
    exact hw.1
  · cases h

/-- All that the writes of an STM leave when they are done. -/
theorem writeBlock_done {vs : List Word} {a : Word} {s t : State} (h : writeBlock vs a s = .done () t) :
    SameButStores s t := by
  induction vs generalizing a s with
  | nil => cases h; exact .refl _
  | cons v vs ih =>
    unfold writeBlock at h
    cases hl : Machine.storeWord s.privileged a v s with
    | ok x u => rw [hl] at h; exact (SameButStores.storeWord hl).trans (ih h)
    | abort f u => rw [hl] at h; cases h
    | stuck x => rw [hl] at h; cases h
    | refused x => rw [hl] at h; cases h

/-- All that the words after an aborted write of an STM can do (47_block_data_transfer.md R354). -/
theorem leaveStored_all (vs : List Word) (a : Word) (s : State) : SameButStores s (leaveStored vs a s) := by
  induction vs generalizing a s with
  | nil => exact .refl _
  | cons v vs ih =>
    unfold leaveStored
    split
    · split
      · rename_i h; exact ((SameButStores.drawn s).trans (.storeWord h)).trans (ih _ _)
      · exact (SameButStores.drawn s).trans (ih _ _)
    · exact (SameButStores.drawn s).trans (ih _ _)

/-- The writes of a list of words are those of its first part, then those of the rest. -/
theorem writeBlock_append {vs : List Word} {a : Word} {s t : State} (h : writeBlock vs a s = .done () t)
    (rest : List Word) : writeBlock (vs ++ rest) a s = writeBlock rest (a + BitVec.ofNat 32 (4 * vs.length)) t := by
  induction vs generalizing a s with
  | nil => cases h; simp
  | cons v vs ih =>
    unfold writeBlock at h
    cases hl : Machine.storeWord s.privileged a v s with
    | ok _ u =>
      rw [hl] at h
      simp only [List.cons_append]
      conv_lhs => unfold writeBlock
      simp only [hl]
      rw [ih h, BitVec.add_assoc, show (4#32) = BitVec.ofNat 32 4 from rfl, ← BitVec.ofNat_add]
      congr 3
      simp; omega
    | abort f u => rw [hl] at h; cases h
    | stuck x => rw [hl] at h; cases h
    | refused x => rw [hl] at h; cases h

end Sys2Proof.Machine
end

