-- ==== Sys2Proof/Laws/Decode.lean ====
section
/-! SUPPORT. The bits of an encoded field, and when a row of the opcode table takes a word: what a proof about `encode` and
`decode` cites. -/

set_option Elab.async false

namespace Sys2Proof

/-- One bit of an encoded field. -/
theorem field_getLsbD {n : Nat} (lo : Nat) (x : BitVec n) (i : Nat) :
    (field lo x).getLsbD i = (decide (i < 32) && decide (lo ≤ i) && x.getLsbD (i - lo)) := by
  by_cases h1 : i < 32 <;> by_cases h2 : lo ≤ i <;> simp [field, h1, h2]

/-- Bits above a field are clear. -/
theorem field_extract_above {n : Nat} (lo : Nat) (x : BitVec n) (b k : Nat) (h : lo + n ≤ b) :
    (field lo x).extractLsb' b k = 0#k := by
  apply BitVec.eq_of_getLsbD_eq
  intro i hi
  simp only [BitVec.getLsbD_extractLsb', field_getLsbD, BitVec.getLsbD_zero]
  rw [BitVec.getLsbD_of_ge x _ (by omega)]
  simp

/-- Bits below a field are clear. -/
theorem field_extract_below {n : Nat} (lo : Nat) (x : BitVec n) (b k : Nat) (h : b + k ≤ lo) :
    (field lo x).extractLsb' b k = 0#k := by
  apply BitVec.eq_of_getLsbD_eq
  intro i hi
  simp only [BitVec.getLsbD_extractLsb', field_getLsbD, BitVec.getLsbD_zero]
  simp [show ¬ lo ≤ b + i by omega]

/-- The bits of a field are what was put there. -/
theorem field_extract_self {n : Nat} (lo : Nat) (x : BitVec n) (h : lo + n ≤ 32) :
    (field lo x).extractLsb' lo n = x := by
  apply BitVec.eq_of_getLsbD_eq
  intro i hi
  simp only [BitVec.getLsbD_extractLsb', field_getLsbD]
  simp [show lo + i < 32 by omega, hi]

/-- A field keeps to the mask of its own bits. -/
theorem field_and_mask {n : Nat} (lo : Nat) (x : BitVec n) (m : Word)
    (h : ∀ i, i < n → m.getLsbD (lo + i) = false) : field lo x &&& m = 0#32 := by
  apply BitVec.eq_of_getLsbD_eq
  intro i hi
  simp only [BitVec.getLsbD_and, field_getLsbD, BitVec.getLsbD_zero]
  by_cases h1 : lo ≤ i
  · by_cases h2 : i - lo < n
    · have := h (i - lo) h2
      rw [show lo + (i - lo) = i by omega] at this
      simp [this]
    · rw [BitVec.getLsbD_of_ge x (i - lo) (by omega)]; simp
  · simp [h1]

/-- The condition a field value of a condition stands for. -/
@[simp] theorem Cond.ofBits_bits (c : Cond) : Cond.ofBits c.bits = some c := by cases c <;> rfl

/-- The field value of the condition that a field value stands for. -/
theorem Cond.bits_of_ofBits {b : BitVec 4} {c : Cond} (h : Cond.ofBits b = some c) : c.bits = b := by
  revert c; revert b; decide

/-- The shift that a field value of a shift stands for. -/
@[simp] theorem ShiftType.ofBits_bits (t : ShiftType) : ShiftType.ofBits t.bits = t := by cases t <;> rfl

/-- The field value of the shift that a field value stands for. -/
@[simp] theorem ShiftType.bits_ofBits (b : BitVec 2) : (ShiftType.ofBits b).bits = b := by
  revert b; decide

/-- A row whose fixed bits contradict those of the row a word belongs to does not take the word. -/
theorem Row.not_matches_of_conflict {r q : Row} {w : Word} (h : r.matches w = true)
    (hc : r.pattern &&& q.mask ≠ q.pattern &&& r.mask) : q.matches w = false := by
  simp only [Row.matches, beq_iff_eq, beq_eq_false_iff_ne] at *
  intro hq
  apply hc
  rw [← h, ← hq, BitVec.and_assoc, BitVec.and_assoc, BitVec.and_comm r.mask]

/-- The fixed bits of the two rows contradict each other. -/
def Row.conflicts (r q : Row) : Bool := r.pattern &&& q.mask != q.pattern &&& r.mask

/-- A word of row `r` is decoded by it where no row before it takes the word: a row before it either contradicts it or
is shown not to take the word. -/
theorem decode_of_row {w : Word} {c : Cond} {before after : List Row} {r : Row}
    (hc : Cond.ofBits (w.extractLsb' 28 4) = some c) (hr : rows = before ++ r :: after)
    (hm : r.matches w = true) (hb : ∀ q ∈ before, r.conflicts q = true ∨ q.matches w = false) :
    decode w = .ok (r.build c w) := by
  have hf : rows.find? (·.matches w) = some r := by
    rw [hr, List.find?_append]
    have hn : before.find? (·.matches w) = none := by
      rw [List.find?_eq_none]
      intro q hq
      rcases hb q hq with h | h
      · rw [Row.not_matches_of_conflict hm (by simpa [Row.conflicts] using h)]; simp
      · rw [h]; simp
    rw [hn]
    simp [hm]
  simp only [decode, hc, hf]

/-- What a decoded word tells: its condition, and a row of the table that takes it and builds the instruction. -/
theorem decode_ok {w : Word} {i : Instr} (h : decode w = .ok i) :
    ∃ c r, Cond.ofBits (w.extractLsb' 28 4) = some c ∧ rows.find? (·.matches w) = some r ∧ i = r.build c w := by
  unfold decode at h
  split at h
  · cases h
  · rename_i c hc
    split at h
    · rename_i r hr
      exact ⟨c, r, hc, hr, by cases h; rfl⟩
    · cases h

end Sys2Proof
end

