-- ==== Sys2Proof/Laws/Mapping.lean ====
section
/-! SUPPORT. When a mapping awaits a barrier, and that a store outside the translation tables changes no mapping
(48_swap_swi_imb.md R383; 20_memory.md R102, R103). -/

set_option Elab.async false

namespace Sys2Proof.Machine

/-- A change of the mapping is open at an address where one on record, not covered there by a barrier, leads elsewhere
(48_swap_swi_imb.md R383). -/
theorem mappingOpen_iff (s : State) (va : Word) :
    mappingOpen s va = true ↔
      ∃ o ∈ s.oldMaps, (∀ x ∈ o.covered, x.meets va = false) ∧ fetchTarget (s.under o) va ≠ fetchTarget s va := by
  simp [mappingOpen, movedSince]

/-- With no mapping on record none is open. -/
theorem mappingOpen_of_nil {s : State} (h : s.oldMaps = []) (va : Word) : mappingOpen s va = false := by
  simp [mappingOpen, h]

/-! ### The words a walk reads -/

/-- A cell that reads other than an unlisted one is listed. -/
theorem Memory.listed_of_read {m : Memory} {a : Nat} (h : m.read a ≠ Memory.unlisted) : ∃ v, (a, v) ∈ m := by
  induction m with
  | nil => exact absurd rfl h
  | cons c t ih =>
    obtain ⟨b, v⟩ := c
    unfold Memory.read at h
    split at h
    · rename_i hab; exact ⟨v, by simp [hab]⟩
    · obtain ⟨w, hw⟩ := ih h; exact ⟨w, by simp [hw]⟩

/-- Whether a walk may read a word does not depend on which byte of it is named. -/
theorem tableWord_wordAligned (s : State) (pa : Word) : tableWord s (wordAligned pa) = tableWord s pa := by
  have h1 : (wordAligned pa).extractLsb' 14 18 = pa.extractLsb' 14 18 := by
    unfold wordAligned; ext i hi; interval_cases i <;> simp
  have h2 : (wordAligned pa).extractLsb' 10 22 = pa.extractLsb' 10 22 := by
    unfold wordAligned; ext i hi; interval_cases i <;> simp
  simp [tableWord, h1, h2]

/-- The table base is the upper bits of the address of a first-level descriptor. -/
theorem firstLevelAddr_table (ttb : BitVec 18) (va : Word) : (firstLevelAddr ttb va).extractLsb' 14 18 = ttb := by
  ext i hi
  rw [BitVec.getElem_extractLsb']
  refine (BitVec.getLsbD_append (x := ttb ++ va.extractLsb' 20 12) (y := 0#2) (i := 14 + i)).trans ?_
  rw [BitVec.getLsbD_append]
  simp [show ¬ 14 + i < 2 by omega, show ¬ 14 + i - 2 < 12 by omega, show 14 + i - 2 - 12 = i by omega,
    BitVec.getLsbD_eq_getElem hi]

/-- The address of a page table is the upper bits of the address of a second-level descriptor. -/
theorem secondLevelAddr_table (l1 va : Word) :
    (secondLevelAddr l1 va).extractLsb' 10 22 = l1.extractLsb' 10 22 := by
  ext i hi
  rw [BitVec.getElem_extractLsb', BitVec.getElem_extractLsb']
  refine (BitVec.getLsbD_append (x := l1.extractLsb' 10 22 ++ va.extractLsb' 12 8) (y := 0#2) (i := 10 + i)).trans ?_
  rw [BitVec.getLsbD_append]
  simp [show ¬ 10 + i < 2 by omega, show ¬ 10 + i - 2 < 8 by omega, show 10 + i - 2 - 8 = i by omega, hi]

/-- The place of a first-level descriptor in its table. -/
theorem firstLevelAddr_toNat (ttb : BitVec 18) (va : Word) :
    wordCell (firstLevelAddr ttb va) = ttb.toNat * 2 ^ 14 + (va.extractLsb' 20 12).toNat * 4 := by
  unfold wordCell firstLevelAddr
  rw [BitVec.toNat_append, BitVec.toNat_append]
  rw [← Nat.shiftLeft_add_eq_or_of_lt (by simp), ← Nat.shiftLeft_add_eq_or_of_lt (BitVec.isLt _)]
  simp only [Nat.shiftLeft_eq, BitVec.toNat_ofNat]
  omega

/-- A first-level descriptor is a word. -/
theorem firstLevelAddr_mod (ttb : BitVec 18) (va : Word) : wordCell (firstLevelAddr ttb va) % 4 = 0 := by
  rw [firstLevelAddr_toNat]; omega

/-- A second-level descriptor is a word. -/
theorem secondLevelAddr_mod (l1 va : Word) : wordCell (secondLevelAddr l1 va) % 4 = 0 := by
  unfold wordCell secondLevelAddr
  rw [BitVec.toNat_append, ← Nat.shiftLeft_add_eq_or_of_lt (by simp)]
  simp only [Nat.shiftLeft_eq, BitVec.toNat_ofNat]
  omega

/-- The first word a walk reads is one it may read. -/
theorem tableWord_first (s : State) (va : Word) : tableWord s (firstLevelAddr s.cp15.ttb va) = true := by
  simp [tableWord, firstLevelAddr_table]

/-- The second word a walk reads is one it may read. -/
theorem tableWord_second (s : State) (va l1 : Word) (h : l1 = s.mem.readWord (wordCell (firstLevelAddr s.cp15.ttb va)))
    (hl : l1.extractLsb' 0 2 = 1#2) : tableWord s (secondLevelAddr l1 va) = true := by
  have hne : s.mem.read (wordCell (firstLevelAddr s.cp15.ttb va)) ≠ Memory.unlisted := by
    intro h0
    have : l1.getLsbD 0 = true := by
      have := congrArg (BitVec.getLsbD · 0) hl
      simpa using this
    have hb := BitVec.getLsbD_append (x := s.mem.read (wordCell (firstLevelAddr s.cp15.ttb va) + 3) ++
      s.mem.read (wordCell (firstLevelAddr s.cp15.ttb va) + 2) ++
      s.mem.read (wordCell (firstLevelAddr s.cp15.ttb va) + 1))
      (y := s.mem.read (wordCell (firstLevelAddr s.cp15.ttb va))) (i := 0)
    rw [h0] at hb
    rw [h] at this
    unfold Memory.readWord at this
    rw [h0] at this
    exact Bool.noConfusion (hb.symm.trans this)
  obtain ⟨v, hv⟩ := Memory.listed_of_read hne
  have h4 : 4 * (wordCell (firstLevelAddr s.cp15.ttb va) / 4) = wordCell (firstLevelAddr s.cp15.ttb va) := by
    rw [firstLevelAddr_toNat]; omega
  have h14 : wordCell (firstLevelAddr s.cp15.ttb va) / 2 ^ 14 = s.cp15.ttb.toNat := by
    rw [firstLevelAddr_toNat]; omega
  unfold tableWord
  rw [Bool.or_eq_true, List.any_eq_true]
  refine .inr ⟨_, hv, ?_⟩
  simp only [h4, h14, ← h, hl, secondLevelAddr_table]
  simp

/-! ### A store elsewhere -/

/-- The state with the memory and the coherence set that a store leaves. -/
def State.withStore (s : State) (m : Memory) (st : List StaleWord) : State :=
  (s.withMem m).withStale st

@[simp] theorem State.withStore_cp15 (s : State) (m : Memory) (st : List StaleWord) :
    (s.withStore m st).cp15 = s.cp15 := rfl

@[simp] theorem State.withStore_tlb (s : State) (m : Memory) (st : List StaleWord) :
    (s.withStore m st).tlb = s.tlb := rfl

/-- The access that ends alike, in the state that a store leaves. -/
def Access.onStore {α : Type} (m : Memory) (st : List StaleWord) (x : Access α) : Access α :=
  match x with
  | .ok v s => .ok v (s.withStore m st)
  | .abort f s => .abort f (s.withStore m st)
  | .stuck r => .stuck r
  | .refused r => .refused r

/-- An access followed by more ends alike where both parts do. -/
theorem Access.bind_onStore {α β : Type} {m : Memory} {st : List StaleWord} {x : Access α} {k : α → State → Access β}
    (h : ∀ v t, x = .ok v t → k v (t.withStore m st) = (k v t).onStore m st) :
    (x.onStore m st).bind k = (x.bind k).onStore m st := by
  cases x with
  | ok v t => exact h v t rfl
  | abort f t => rfl
  | stuck r => rfl
  | refused r => rfl

/-- A fault of the MMU does not depend on memory. -/
theorem mmuFault_withStore {α : Type} (code : BitVec 4) (d : Option (BitVec 4)) (s : State) (m : Memory)
    (st : List StaleWord) : mmuFault code d (s.withStore m st) = (mmuFault code d s : Access α).onStore m st := by
  cases d <;> rfl

/-- A table read that is done gives the word and changes nothing. -/
theorem tableRead_ok {code : BitVec 4} {d : Option (BitVec 4)} {pa v : Word} {s t : State}
    (h : tableRead code d pa s = .ok v t) : v = s.mem.readWord (wordCell pa) ∧ t = s := by
  unfold tableRead at h
  split at h
  · cases d <;> cases h
  · split at h <;> cases h
    exact ⟨rfl, rfl⟩

/-- A table read ends alike where the word is the same. -/
theorem tableRead_withStore {code : BitVec 4} {d : Option (BitVec 4)} {pa : Word} {s : State} {m : Memory}
    {st : List StaleWord} (h : m.readWord (wordCell pa) = s.mem.readWord (wordCell pa)) :
    tableRead code d pa (s.withStore m st) = (tableRead code d pa s).onStore m st := by
  change (if s.aborted pa 4 .read then _ else match s.kindAt pa 4 with
    | none => _ | some .device => _ | some _ => Access.ok (m.readWord (wordCell pa)) (s.withStore m st)) = _
  rw [h]
  unfold tableRead
  split
  · exact mmuFault_withStore ..
  · cases s.kindAt pa 4 with
    | none => rfl
    | some k => cases k <;> rfl

/-- A walk ends alike where the words it may read are the same (20_memory.md R102, R103). -/
theorem walk_withStore {s : State} {m : Memory} {st : List StaleWord}
    (h : ∀ pa, wordCell pa % 4 = 0 → tableWord s pa = true → m.readWord (wordCell pa) = s.mem.readWord (wordCell pa))
    (va : Word) : walk va (s.withStore m st) = (walk va s).onStore m st := by
  unfold walk
  rw [State.withStore_cp15, tableRead_withStore (h _ (firstLevelAddr_mod _ va) (tableWord_first s va))]
  refine Access.bind_onStore fun l1 t ht => ?_
  obtain ⟨hl1, rfl⟩ := tableRead_ok ht
  split
  · exact mmuFault_withStore ..
  · rename_i hb
    unfold walkSecond
    rw [tableRead_withStore
      (h _ (secondLevelAddr_mod l1 va) (tableWord_second t va l1 hl1 (BitVec.eq_of_toNat_eq hb)))]
    refine Access.bind_onStore fun l2 u hu => ?_
    obtain ⟨_, rfl⟩ := tableRead_ok hu
    split
    · exact mmuFault_withStore ..
    · rfl
    · rfl
    · rfl
  · rfl
  · rfl

/-- A fetch goes where it went when the words a walk may read are the same (20_memory.md R92, R105). -/
theorem fetchTarget_withStore {s : State} {m : Memory} {st : List StaleWord}
    (h : ∀ pa, wordCell pa % 4 = 0 → tableWord s pa = true → m.readWord (wordCell pa) = s.mem.readWord (wordCell pa))
    (va : Word) : fetchTarget (s.withStore m st) va = fetchTarget s va := by
  have key : translate .fetch s.privileged va ((s.withEnv []).withStore m st) =
      (translate .fetch s.privileged va (s.withEnv [])).onStore m st := by
    unfold translate
    simp only [State.withStore_cp15, State.withEnv_cp15]
    by_cases hon : s.cp15.control.m = true
    · simp only [hon, ↓reduceIte]
      have ht : tlbLookup va ((s.withEnv []).withStore m st) = (tlbLookup va (s.withEnv [])).onStore m st := by
        unfold tlbLookup
        rw [State.withStore_tlb]
        split
        · rfl
        · rw [walk_withStore (s := s.withEnv []) h va]
          exact Access.bind_onStore fun e t _ => rfl
      rw [ht]
      refine Access.bind_onStore fun e t _ => ?_
      unfold checkAccess
      simp only [State.withStore_cp15]
      split
      · rfl
      · split
        · rfl
        · exact mmuFault_withStore ..
        · rfl
      · exact mmuFault_withStore ..
    · simp only [hon, ↓reduceIte, Bool.false_eq_true]; rfl
  change (match translate .fetch s.privileged va ((s.withEnv []).withStore m st) with
    | .ok t _ => some t.pa | _ => none) = _
  rw [key]
  unfold fetchTarget
  cases translate .fetch s.privileged va (s.withEnv []) <;> rfl

/-- A store outside the translation tables leaves every fetch where it went: only a store that `remapsAt` names can
change a mapping (48_swap_swi_imb.md R383). -/
theorem fetchTarget_stored {s : State} {r : Reached} {m : Memory} (hp : remapsAt s r.pa = false)
    (hm : ∀ a, ¬ inCells (wordAligned r.pa).toNat 4 a → m.read a = s.mem.read a) (va : Word) :
    fetchTarget (s.stored r m) va = fetchTarget s va := by
  unfold State.stored
  split
  · rfl
  rw [hp]
  change fetchTarget (s.withStore m _) va = _
  unfold remapsAt at hp
  rw [Bool.and_eq_false_iff] at hp
  rcases hp with hp | hp
  · unfold fetchTarget translate
    simp [hp]
  refine fetchTarget_withStore (fun q hq hw => ?_) va
  have hne : q.toNat ≠ (wordAligned r.pa).toNat := by
    intro h
    rw [BitVec.eq_of_toNat_eq h, tableWord_wordAligned, hp] at hw
    cases hw
  have h4 : (wordAligned r.pa).toNat % 4 = 0 := by
    unfold wordAligned
    rw [BitVec.toNat_and]
    exact (Nat.and_mod_two_pow (n := 2)).trans (by simp)
  unfold wordCell at hq
  have hout : ∀ k, k < 4 → m.read (wordCell q + k) = s.mem.read (wordCell q + k) := by
    intro k hk
    refine hm _ ?_
    unfold inCells wordCell
    omega
  unfold Memory.readWord
  rw [hout 3 (by omega), hout 2 (by omega), hout 1 (by omega), show wordCell q = wordCell q + 0 from rfl,
    hout 0 (by omega)]

end Sys2Proof.Machine
end

