-- ==== Sys2Proof/Laws/PerInstr.lean ====
section
/-! SUPPORT. Statements about every instruction, proved once for each constructor of `Instr`. -/

set_option Elab.async false

namespace Sys2Proof.Laws

/-- Bits 31:28 of the word of an instruction are those of its condition (30_encoding.md R141). -/
def EncodeCond.Statement (i : Instr) : Prop := (encode i).extractLsb' 28 4 = i.cond.bits

/-- The condition's own part. -/
@[simp] theorem encodeCond_self (c : Cond) : (field 28 c.bits).extractLsb' 28 4 = c.bits :=
  field_extract_self _ _ (by decide)

/-- A part below bit 28. -/
@[simp] theorem encodeCond_below {n lo : Nat} (x : BitVec n) (h : lo + n ≤ 28) :
    (field lo x).extractLsb' 28 4 = 0#4 :=
  field_extract_above _ _ _ _ h

@[simp] theorem encodeCond_rotatedImm (op : RotatedImm) : (rotatedImmBits op).extractLsb' 28 4 = 0#4 := by
  simp [rotatedImmBits, BitVec.extractLsb'_or]

@[simp] theorem encodeCond_shiftedReg (op : ShiftedReg) : (shiftedRegBits op).extractLsb' 28 4 = 0#4 := by
  simp [shiftedRegBits, BitVec.extractLsb'_or]

@[simp] theorem encodeCond_regShiftedReg (op : RegShiftedReg) :
    (regShiftedRegBits op).extractLsb' 28 4 = 0#4 := by
  simp [regShiftedRegBits, BitVec.extractLsb'_or]

@[simp] theorem encodeCond_indexing (ix : Indexing) : (indexingBits ix).extractLsb' 28 4 = 0#4 := by
  simp [indexingBits, BitVec.extractLsb'_or]

@[simp] theorem encodeCond_blockMode (bm : BlockMode) : (blockModeBits bm).extractLsb' 28 4 = 0#4 := by
  simp [blockModeBits, BitVec.extractLsb'_or]

@[simp] theorem encodeCond_splitOffset (off : BitVec 8) : (splitOffsetBits off).extractLsb' 28 4 = 0#4 := by
  simp [splitOffsetBits, BitVec.extractLsb'_or]

theorem EncodeCond.mul (c : Cond) (sf : Bool) (rd : Reg) (rs : Reg) (rm : Reg) :
    EncodeCond.Statement (.mul c sf rd rs rm) := by
  simp [EncodeCond.Statement, encode, Instr.cond, BitVec.extractLsb'_or]

theorem EncodeCond.mla (c : Cond) (sf : Bool) (rd : Reg) (rn : Reg) (rs : Reg) (rm : Reg) :
    EncodeCond.Statement (.mla c sf rd rn rs rm) := by
  simp [EncodeCond.Statement, encode, Instr.cond, BitVec.extractLsb'_or]

theorem EncodeCond.umull (c : Cond) (sf : Bool) (rdHi : Reg) (rdLo : Reg) (rs : Reg) (rm : Reg) :
    EncodeCond.Statement (.umull c sf rdHi rdLo rs rm) := by
  simp [EncodeCond.Statement, encode, Instr.cond, BitVec.extractLsb'_or]

theorem EncodeCond.umlal (c : Cond) (sf : Bool) (rdHi : Reg) (rdLo : Reg) (rs : Reg) (rm : Reg) :
    EncodeCond.Statement (.umlal c sf rdHi rdLo rs rm) := by
  simp [EncodeCond.Statement, encode, Instr.cond, BitVec.extractLsb'_or]

theorem EncodeCond.smull (c : Cond) (sf : Bool) (rdHi : Reg) (rdLo : Reg) (rs : Reg) (rm : Reg) :
    EncodeCond.Statement (.smull c sf rdHi rdLo rs rm) := by
  simp [EncodeCond.Statement, encode, Instr.cond, BitVec.extractLsb'_or]

theorem EncodeCond.smlal (c : Cond) (sf : Bool) (rdHi : Reg) (rdLo : Reg) (rs : Reg) (rm : Reg) :
    EncodeCond.Statement (.smlal c sf rdHi rdLo rs rm) := by
  simp [EncodeCond.Statement, encode, Instr.cond, BitVec.extractLsb'_or]

theorem EncodeCond.swp (c : Cond) (rn : Reg) (rd : Reg) (rm : Reg) :
    EncodeCond.Statement (.swp c rn rd rm) := by
  simp [EncodeCond.Statement, encode, Instr.cond, BitVec.extractLsb'_or]

theorem EncodeCond.swpb (c : Cond) (rn : Reg) (rd : Reg) (rm : Reg) :
    EncodeCond.Statement (.swpb c rn rd rm) := by
  simp [EncodeCond.Statement, encode, Instr.cond, BitVec.extractLsb'_or]

theorem EncodeCond.strhReg (c : Cond) (ix : Indexing) (rn : Reg) (rd : Reg) (rm : Reg) :
    EncodeCond.Statement (.strhReg c ix rn rd rm) := by
  simp [EncodeCond.Statement, encode, Instr.cond, BitVec.extractLsb'_or]

theorem EncodeCond.strhImm (c : Cond) (ix : Indexing) (rn : Reg) (rd : Reg) (off : BitVec 8) :
    EncodeCond.Statement (.strhImm c ix rn rd off) := by
  simp [EncodeCond.Statement, encode, Instr.cond, BitVec.extractLsb'_or]

theorem EncodeCond.ldrhReg (c : Cond) (ix : Indexing) (rn : Reg) (rd : Reg) (rm : Reg) :
    EncodeCond.Statement (.ldrhReg c ix rn rd rm) := by
  simp [EncodeCond.Statement, encode, Instr.cond, BitVec.extractLsb'_or]

theorem EncodeCond.ldrhImm (c : Cond) (ix : Indexing) (rn : Reg) (rd : Reg) (off : BitVec 8) :
    EncodeCond.Statement (.ldrhImm c ix rn rd off) := by
  simp [EncodeCond.Statement, encode, Instr.cond, BitVec.extractLsb'_or]

theorem EncodeCond.ldrsbReg (c : Cond) (ix : Indexing) (rn : Reg) (rd : Reg) (rm : Reg) :
    EncodeCond.Statement (.ldrsbReg c ix rn rd rm) := by
  simp [EncodeCond.Statement, encode, Instr.cond, BitVec.extractLsb'_or]

theorem EncodeCond.ldrsbImm (c : Cond) (ix : Indexing) (rn : Reg) (rd : Reg) (off : BitVec 8) :
    EncodeCond.Statement (.ldrsbImm c ix rn rd off) := by
  simp [EncodeCond.Statement, encode, Instr.cond, BitVec.extractLsb'_or]

theorem EncodeCond.ldrshReg (c : Cond) (ix : Indexing) (rn : Reg) (rd : Reg) (rm : Reg) :
    EncodeCond.Statement (.ldrshReg c ix rn rd rm) := by
  simp [EncodeCond.Statement, encode, Instr.cond, BitVec.extractLsb'_or]

theorem EncodeCond.ldrshImm (c : Cond) (ix : Indexing) (rn : Reg) (rd : Reg) (off : BitVec 8) :
    EncodeCond.Statement (.ldrshImm c ix rn rd off) := by
  simp [EncodeCond.Statement, encode, Instr.cond, BitVec.extractLsb'_or]

theorem EncodeCond.mrs (c : Cond) (spsr : Bool) (rd : Reg) :
    EncodeCond.Statement (.mrs c spsr rd) := by
  simp [EncodeCond.Statement, encode, Instr.cond, BitVec.extractLsb'_or]

theorem EncodeCond.msrReg (c : Cond) (spsr : Bool) (mask : BitVec 4) (rm : Reg) :
    EncodeCond.Statement (.msrReg c spsr mask rm) := by
  simp [EncodeCond.Statement, encode, Instr.cond, BitVec.extractLsb'_or]

theorem EncodeCond.msrImm (c : Cond) (spsr : Bool) (mask : BitVec 4) (op : RotatedImm) :
    EncodeCond.Statement (.msrImm c spsr mask op) := by
  simp [EncodeCond.Statement, encode, Instr.cond, BitVec.extractLsb'_or]

theorem EncodeCond.andImm (c : Cond) (sf : Bool) (rn : Reg) (rd : Reg) (op : RotatedImm) :
    EncodeCond.Statement (.andImm c sf rn rd op) := by
  simp [EncodeCond.Statement, encode, Instr.cond, BitVec.extractLsb'_or]

theorem EncodeCond.andReg (c : Cond) (sf : Bool) (rn : Reg) (rd : Reg) (op : ShiftedReg) :
    EncodeCond.Statement (.andReg c sf rn rd op) := by
  simp [EncodeCond.Statement, encode, Instr.cond, BitVec.extractLsb'_or]

theorem EncodeCond.andRsr (c : Cond) (sf : Bool) (rn : Reg) (rd : Reg) (op : RegShiftedReg) :
    EncodeCond.Statement (.andRsr c sf rn rd op) := by
  simp [EncodeCond.Statement, encode, Instr.cond, BitVec.extractLsb'_or]

theorem EncodeCond.eorImm (c : Cond) (sf : Bool) (rn : Reg) (rd : Reg) (op : RotatedImm) :
    EncodeCond.Statement (.eorImm c sf rn rd op) := by
  simp [EncodeCond.Statement, encode, Instr.cond, BitVec.extractLsb'_or]

theorem EncodeCond.eorReg (c : Cond) (sf : Bool) (rn : Reg) (rd : Reg) (op : ShiftedReg) :
    EncodeCond.Statement (.eorReg c sf rn rd op) := by
  simp [EncodeCond.Statement, encode, Instr.cond, BitVec.extractLsb'_or]

theorem EncodeCond.eorRsr (c : Cond) (sf : Bool) (rn : Reg) (rd : Reg) (op : RegShiftedReg) :
    EncodeCond.Statement (.eorRsr c sf rn rd op) := by
  simp [EncodeCond.Statement, encode, Instr.cond, BitVec.extractLsb'_or]

theorem EncodeCond.subImm (c : Cond) (sf : Bool) (rn : Reg) (rd : Reg) (op : RotatedImm) :
    EncodeCond.Statement (.subImm c sf rn rd op) := by
  simp [EncodeCond.Statement, encode, Instr.cond, BitVec.extractLsb'_or]

theorem EncodeCond.subReg (c : Cond) (sf : Bool) (rn : Reg) (rd : Reg) (op : ShiftedReg) :
    EncodeCond.Statement (.subReg c sf rn rd op) := by
  simp [EncodeCond.Statement, encode, Instr.cond, BitVec.extractLsb'_or]

theorem EncodeCond.subRsr (c : Cond) (sf : Bool) (rn : Reg) (rd : Reg) (op : RegShiftedReg) :
    EncodeCond.Statement (.subRsr c sf rn rd op) := by
  simp [EncodeCond.Statement, encode, Instr.cond, BitVec.extractLsb'_or]

theorem EncodeCond.rsbImm (c : Cond) (sf : Bool) (rn : Reg) (rd : Reg) (op : RotatedImm) :
    EncodeCond.Statement (.rsbImm c sf rn rd op) := by
  simp [EncodeCond.Statement, encode, Instr.cond, BitVec.extractLsb'_or]

theorem EncodeCond.rsbReg (c : Cond) (sf : Bool) (rn : Reg) (rd : Reg) (op : ShiftedReg) :
    EncodeCond.Statement (.rsbReg c sf rn rd op) := by
  simp [EncodeCond.Statement, encode, Instr.cond, BitVec.extractLsb'_or]

theorem EncodeCond.rsbRsr (c : Cond) (sf : Bool) (rn : Reg) (rd : Reg) (op : RegShiftedReg) :
    EncodeCond.Statement (.rsbRsr c sf rn rd op) := by
  simp [EncodeCond.Statement, encode, Instr.cond, BitVec.extractLsb'_or]

theorem EncodeCond.addImm (c : Cond) (sf : Bool) (rn : Reg) (rd : Reg) (op : RotatedImm) :
    EncodeCond.Statement (.addImm c sf rn rd op) := by
  simp [EncodeCond.Statement, encode, Instr.cond, BitVec.extractLsb'_or]

theorem EncodeCond.addReg (c : Cond) (sf : Bool) (rn : Reg) (rd : Reg) (op : ShiftedReg) :
    EncodeCond.Statement (.addReg c sf rn rd op) := by
  simp [EncodeCond.Statement, encode, Instr.cond, BitVec.extractLsb'_or]

theorem EncodeCond.addRsr (c : Cond) (sf : Bool) (rn : Reg) (rd : Reg) (op : RegShiftedReg) :
    EncodeCond.Statement (.addRsr c sf rn rd op) := by
  simp [EncodeCond.Statement, encode, Instr.cond, BitVec.extractLsb'_or]

theorem EncodeCond.adcImm (c : Cond) (sf : Bool) (rn : Reg) (rd : Reg) (op : RotatedImm) :
    EncodeCond.Statement (.adcImm c sf rn rd op) := by
  simp [EncodeCond.Statement, encode, Instr.cond, BitVec.extractLsb'_or]

theorem EncodeCond.adcReg (c : Cond) (sf : Bool) (rn : Reg) (rd : Reg) (op : ShiftedReg) :
    EncodeCond.Statement (.adcReg c sf rn rd op) := by
  simp [EncodeCond.Statement, encode, Instr.cond, BitVec.extractLsb'_or]

theorem EncodeCond.adcRsr (c : Cond) (sf : Bool) (rn : Reg) (rd : Reg) (op : RegShiftedReg) :
    EncodeCond.Statement (.adcRsr c sf rn rd op) := by
  simp [EncodeCond.Statement, encode, Instr.cond, BitVec.extractLsb'_or]

theorem EncodeCond.sbcImm (c : Cond) (sf : Bool) (rn : Reg) (rd : Reg) (op : RotatedImm) :
    EncodeCond.Statement (.sbcImm c sf rn rd op) := by
  simp [EncodeCond.Statement, encode, Instr.cond, BitVec.extractLsb'_or]

theorem EncodeCond.sbcReg (c : Cond) (sf : Bool) (rn : Reg) (rd : Reg) (op : ShiftedReg) :
    EncodeCond.Statement (.sbcReg c sf rn rd op) := by
  simp [EncodeCond.Statement, encode, Instr.cond, BitVec.extractLsb'_or]

theorem EncodeCond.sbcRsr (c : Cond) (sf : Bool) (rn : Reg) (rd : Reg) (op : RegShiftedReg) :
    EncodeCond.Statement (.sbcRsr c sf rn rd op) := by
  simp [EncodeCond.Statement, encode, Instr.cond, BitVec.extractLsb'_or]

theorem EncodeCond.rscImm (c : Cond) (sf : Bool) (rn : Reg) (rd : Reg) (op : RotatedImm) :
    EncodeCond.Statement (.rscImm c sf rn rd op) := by
  simp [EncodeCond.Statement, encode, Instr.cond, BitVec.extractLsb'_or]

theorem EncodeCond.rscReg (c : Cond) (sf : Bool) (rn : Reg) (rd : Reg) (op : ShiftedReg) :
    EncodeCond.Statement (.rscReg c sf rn rd op) := by
  simp [EncodeCond.Statement, encode, Instr.cond, BitVec.extractLsb'_or]

theorem EncodeCond.rscRsr (c : Cond) (sf : Bool) (rn : Reg) (rd : Reg) (op : RegShiftedReg) :
    EncodeCond.Statement (.rscRsr c sf rn rd op) := by
  simp [EncodeCond.Statement, encode, Instr.cond, BitVec.extractLsb'_or]

theorem EncodeCond.tstImm (c : Cond) (rn : Reg) (op : RotatedImm) :
    EncodeCond.Statement (.tstImm c rn op) := by
  simp [EncodeCond.Statement, encode, Instr.cond, BitVec.extractLsb'_or]

theorem EncodeCond.tstReg (c : Cond) (rn : Reg) (op : ShiftedReg) :
    EncodeCond.Statement (.tstReg c rn op) := by
  simp [EncodeCond.Statement, encode, Instr.cond, BitVec.extractLsb'_or]

theorem EncodeCond.tstRsr (c : Cond) (rn : Reg) (op : RegShiftedReg) :
    EncodeCond.Statement (.tstRsr c rn op) := by
  simp [EncodeCond.Statement, encode, Instr.cond, BitVec.extractLsb'_or]

theorem EncodeCond.teqImm (c : Cond) (rn : Reg) (op : RotatedImm) :
    EncodeCond.Statement (.teqImm c rn op) := by
  simp [EncodeCond.Statement, encode, Instr.cond, BitVec.extractLsb'_or]

theorem EncodeCond.teqReg (c : Cond) (rn : Reg) (op : ShiftedReg) :
    EncodeCond.Statement (.teqReg c rn op) := by
  simp [EncodeCond.Statement, encode, Instr.cond, BitVec.extractLsb'_or]

theorem EncodeCond.teqRsr (c : Cond) (rn : Reg) (op : RegShiftedReg) :
    EncodeCond.Statement (.teqRsr c rn op) := by
  simp [EncodeCond.Statement, encode, Instr.cond, BitVec.extractLsb'_or]

theorem EncodeCond.cmpImm (c : Cond) (rn : Reg) (op : RotatedImm) :
    EncodeCond.Statement (.cmpImm c rn op) := by
  simp [EncodeCond.Statement, encode, Instr.cond, BitVec.extractLsb'_or]

theorem EncodeCond.cmpReg (c : Cond) (rn : Reg) (op : ShiftedReg) :
    EncodeCond.Statement (.cmpReg c rn op) := by
  simp [EncodeCond.Statement, encode, Instr.cond, BitVec.extractLsb'_or]

theorem EncodeCond.cmpRsr (c : Cond) (rn : Reg) (op : RegShiftedReg) :
    EncodeCond.Statement (.cmpRsr c rn op) := by
  simp [EncodeCond.Statement, encode, Instr.cond, BitVec.extractLsb'_or]

theorem EncodeCond.cmnImm (c : Cond) (rn : Reg) (op : RotatedImm) :
    EncodeCond.Statement (.cmnImm c rn op) := by
  simp [EncodeCond.Statement, encode, Instr.cond, BitVec.extractLsb'_or]

theorem EncodeCond.cmnReg (c : Cond) (rn : Reg) (op : ShiftedReg) :
    EncodeCond.Statement (.cmnReg c rn op) := by
  simp [EncodeCond.Statement, encode, Instr.cond, BitVec.extractLsb'_or]

theorem EncodeCond.cmnRsr (c : Cond) (rn : Reg) (op : RegShiftedReg) :
    EncodeCond.Statement (.cmnRsr c rn op) := by
  simp [EncodeCond.Statement, encode, Instr.cond, BitVec.extractLsb'_or]

theorem EncodeCond.orrImm (c : Cond) (sf : Bool) (rn : Reg) (rd : Reg) (op : RotatedImm) :
    EncodeCond.Statement (.orrImm c sf rn rd op) := by
  simp [EncodeCond.Statement, encode, Instr.cond, BitVec.extractLsb'_or]

theorem EncodeCond.orrReg (c : Cond) (sf : Bool) (rn : Reg) (rd : Reg) (op : ShiftedReg) :
    EncodeCond.Statement (.orrReg c sf rn rd op) := by
  simp [EncodeCond.Statement, encode, Instr.cond, BitVec.extractLsb'_or]

theorem EncodeCond.orrRsr (c : Cond) (sf : Bool) (rn : Reg) (rd : Reg) (op : RegShiftedReg) :
    EncodeCond.Statement (.orrRsr c sf rn rd op) := by
  simp [EncodeCond.Statement, encode, Instr.cond, BitVec.extractLsb'_or]

theorem EncodeCond.movImm (c : Cond) (sf : Bool) (rd : Reg) (op : RotatedImm) :
    EncodeCond.Statement (.movImm c sf rd op) := by
  simp [EncodeCond.Statement, encode, Instr.cond, BitVec.extractLsb'_or]

theorem EncodeCond.movReg (c : Cond) (sf : Bool) (rd : Reg) (op : ShiftedReg) :
    EncodeCond.Statement (.movReg c sf rd op) := by
  simp [EncodeCond.Statement, encode, Instr.cond, BitVec.extractLsb'_or]

theorem EncodeCond.movRsr (c : Cond) (sf : Bool) (rd : Reg) (op : RegShiftedReg) :
    EncodeCond.Statement (.movRsr c sf rd op) := by
  simp [EncodeCond.Statement, encode, Instr.cond, BitVec.extractLsb'_or]

theorem EncodeCond.bicImm (c : Cond) (sf : Bool) (rn : Reg) (rd : Reg) (op : RotatedImm) :
    EncodeCond.Statement (.bicImm c sf rn rd op) := by
  simp [EncodeCond.Statement, encode, Instr.cond, BitVec.extractLsb'_or]

theorem EncodeCond.bicReg (c : Cond) (sf : Bool) (rn : Reg) (rd : Reg) (op : ShiftedReg) :
    EncodeCond.Statement (.bicReg c sf rn rd op) := by
  simp [EncodeCond.Statement, encode, Instr.cond, BitVec.extractLsb'_or]

theorem EncodeCond.bicRsr (c : Cond) (sf : Bool) (rn : Reg) (rd : Reg) (op : RegShiftedReg) :
    EncodeCond.Statement (.bicRsr c sf rn rd op) := by
  simp [EncodeCond.Statement, encode, Instr.cond, BitVec.extractLsb'_or]

theorem EncodeCond.mvnImm (c : Cond) (sf : Bool) (rd : Reg) (op : RotatedImm) :
    EncodeCond.Statement (.mvnImm c sf rd op) := by
  simp [EncodeCond.Statement, encode, Instr.cond, BitVec.extractLsb'_or]

theorem EncodeCond.mvnReg (c : Cond) (sf : Bool) (rd : Reg) (op : ShiftedReg) :
    EncodeCond.Statement (.mvnReg c sf rd op) := by
  simp [EncodeCond.Statement, encode, Instr.cond, BitVec.extractLsb'_or]

theorem EncodeCond.mvnRsr (c : Cond) (sf : Bool) (rd : Reg) (op : RegShiftedReg) :
    EncodeCond.Statement (.mvnRsr c sf rd op) := by
  simp [EncodeCond.Statement, encode, Instr.cond, BitVec.extractLsb'_or]

theorem EncodeCond.undefined (c : Cond) (hi : BitVec 20) (lo : BitVec 4) :
    EncodeCond.Statement (.undefined c hi lo) := by
  simp [EncodeCond.Statement, encode, Instr.cond, BitVec.extractLsb'_or]

theorem EncodeCond.ldrtImm (c : Cond) (u : Bool) (rn : Reg) (rd : Reg) (off : BitVec 12) :
    EncodeCond.Statement (.ldrtImm c u rn rd off) := by
  simp [EncodeCond.Statement, encode, Instr.cond, BitVec.extractLsb'_or]

theorem EncodeCond.ldrtReg (c : Cond) (u : Bool) (rn : Reg) (rd : Reg) (op : ShiftedReg) :
    EncodeCond.Statement (.ldrtReg c u rn rd op) := by
  simp [EncodeCond.Statement, encode, Instr.cond, BitVec.extractLsb'_or]

theorem EncodeCond.strtImm (c : Cond) (u : Bool) (rn : Reg) (rd : Reg) (off : BitVec 12) :
    EncodeCond.Statement (.strtImm c u rn rd off) := by
  simp [EncodeCond.Statement, encode, Instr.cond, BitVec.extractLsb'_or]

theorem EncodeCond.strtReg (c : Cond) (u : Bool) (rn : Reg) (rd : Reg) (op : ShiftedReg) :
    EncodeCond.Statement (.strtReg c u rn rd op) := by
  simp [EncodeCond.Statement, encode, Instr.cond, BitVec.extractLsb'_or]

theorem EncodeCond.ldrbtImm (c : Cond) (u : Bool) (rn : Reg) (rd : Reg) (off : BitVec 12) :
    EncodeCond.Statement (.ldrbtImm c u rn rd off) := by
  simp [EncodeCond.Statement, encode, Instr.cond, BitVec.extractLsb'_or]

theorem EncodeCond.ldrbtReg (c : Cond) (u : Bool) (rn : Reg) (rd : Reg) (op : ShiftedReg) :
    EncodeCond.Statement (.ldrbtReg c u rn rd op) := by
  simp [EncodeCond.Statement, encode, Instr.cond, BitVec.extractLsb'_or]

theorem EncodeCond.strbtImm (c : Cond) (u : Bool) (rn : Reg) (rd : Reg) (off : BitVec 12) :
    EncodeCond.Statement (.strbtImm c u rn rd off) := by
  simp [EncodeCond.Statement, encode, Instr.cond, BitVec.extractLsb'_or]

theorem EncodeCond.strbtReg (c : Cond) (u : Bool) (rn : Reg) (rd : Reg) (op : ShiftedReg) :
    EncodeCond.Statement (.strbtReg c u rn rd op) := by
  simp [EncodeCond.Statement, encode, Instr.cond, BitVec.extractLsb'_or]

theorem EncodeCond.ldrImm (c : Cond) (ix : Indexing) (rn : Reg) (rd : Reg) (off : BitVec 12) :
    EncodeCond.Statement (.ldrImm c ix rn rd off) := by
  simp [EncodeCond.Statement, encode, Instr.cond, BitVec.extractLsb'_or]

theorem EncodeCond.ldrReg (c : Cond) (ix : Indexing) (rn : Reg) (rd : Reg) (op : ShiftedReg) :
    EncodeCond.Statement (.ldrReg c ix rn rd op) := by
  simp [EncodeCond.Statement, encode, Instr.cond, BitVec.extractLsb'_or]

theorem EncodeCond.strImm (c : Cond) (ix : Indexing) (rn : Reg) (rd : Reg) (off : BitVec 12) :
    EncodeCond.Statement (.strImm c ix rn rd off) := by
  simp [EncodeCond.Statement, encode, Instr.cond, BitVec.extractLsb'_or]

theorem EncodeCond.strReg (c : Cond) (ix : Indexing) (rn : Reg) (rd : Reg) (op : ShiftedReg) :
    EncodeCond.Statement (.strReg c ix rn rd op) := by
  simp [EncodeCond.Statement, encode, Instr.cond, BitVec.extractLsb'_or]

theorem EncodeCond.ldrbImm (c : Cond) (ix : Indexing) (rn : Reg) (rd : Reg) (off : BitVec 12) :
    EncodeCond.Statement (.ldrbImm c ix rn rd off) := by
  simp [EncodeCond.Statement, encode, Instr.cond, BitVec.extractLsb'_or]

theorem EncodeCond.ldrbReg (c : Cond) (ix : Indexing) (rn : Reg) (rd : Reg) (op : ShiftedReg) :
    EncodeCond.Statement (.ldrbReg c ix rn rd op) := by
  simp [EncodeCond.Statement, encode, Instr.cond, BitVec.extractLsb'_or]

theorem EncodeCond.strbImm (c : Cond) (ix : Indexing) (rn : Reg) (rd : Reg) (off : BitVec 12) :
    EncodeCond.Statement (.strbImm c ix rn rd off) := by
  simp [EncodeCond.Statement, encode, Instr.cond, BitVec.extractLsb'_or]

theorem EncodeCond.strbReg (c : Cond) (ix : Indexing) (rn : Reg) (rd : Reg) (op : ShiftedReg) :
    EncodeCond.Statement (.strbReg c ix rn rd op) := by
  simp [EncodeCond.Statement, encode, Instr.cond, BitVec.extractLsb'_or]

theorem EncodeCond.ldm (c : Cond) (bm : BlockMode) (rn : Reg) (list : BitVec 16) :
    EncodeCond.Statement (.ldm c bm rn list) := by
  simp [EncodeCond.Statement, encode, Instr.cond, BitVec.extractLsb'_or]

theorem EncodeCond.stm (c : Cond) (bm : BlockMode) (rn : Reg) (list : BitVec 16) :
    EncodeCond.Statement (.stm c bm rn list) := by
  simp [EncodeCond.Statement, encode, Instr.cond, BitVec.extractLsb'_or]

theorem EncodeCond.b (c : Cond) (off : BitVec 24) :
    EncodeCond.Statement (.b c off) := by
  simp [EncodeCond.Statement, encode, Instr.cond, BitVec.extractLsb'_or]

theorem EncodeCond.bl (c : Cond) (off : BitVec 24) :
    EncodeCond.Statement (.bl c off) := by
  simp [EncodeCond.Statement, encode, Instr.cond, BitVec.extractLsb'_or]

theorem EncodeCond.ldc (c : Cond) (p : Bool) (u : Bool) (n : Bool) (w : Bool) (rn : Reg) (crd : BitVec 4) (cp : BitVec 4) (off : BitVec 8) :
    EncodeCond.Statement (.ldc c p u n w rn crd cp off) := by
  simp [EncodeCond.Statement, encode, Instr.cond, BitVec.extractLsb'_or]

theorem EncodeCond.stc (c : Cond) (p : Bool) (u : Bool) (n : Bool) (w : Bool) (rn : Reg) (crd : BitVec 4) (cp : BitVec 4) (off : BitVec 8) :
    EncodeCond.Statement (.stc c p u n w rn crd cp off) := by
  simp [EncodeCond.Statement, encode, Instr.cond, BitVec.extractLsb'_or]

theorem EncodeCond.imb (c : Cond) :
    EncodeCond.Statement (.imb c) := by
  simp [EncodeCond.Statement, encode, Instr.cond, BitVec.extractLsb'_or]

theorem EncodeCond.imbRange (c : Cond) :
    EncodeCond.Statement (.imbRange c) := by
  simp [EncodeCond.Statement, encode, Instr.cond, BitVec.extractLsb'_or]

theorem EncodeCond.swi (c : Cond) (comment : BitVec 24) :
    EncodeCond.Statement (.swi c comment) := by
  simp [EncodeCond.Statement, encode, Instr.cond, BitVec.extractLsb'_or]

theorem EncodeCond.cdp (c : Cond) (op1 : BitVec 4) (crn : BitVec 4) (crd : BitVec 4) (cp : BitVec 4) (op2 : BitVec 3) (crm : BitVec 4) :
    EncodeCond.Statement (.cdp c op1 crn crd cp op2 crm) := by
  simp [EncodeCond.Statement, encode, Instr.cond, BitVec.extractLsb'_or]

theorem EncodeCond.mrc (c : Cond) (op1 : BitVec 3) (crn : BitVec 4) (rd : Reg) (op2 : BitVec 3) (crm : BitVec 4) :
    EncodeCond.Statement (.mrc c op1 crn rd op2 crm) := by
  simp [EncodeCond.Statement, encode, Instr.cond, BitVec.extractLsb'_or]

theorem EncodeCond.mcr (c : Cond) (op1 : BitVec 3) (crn : BitVec 4) (rd : Reg) (op2 : BitVec 3) (crm : BitVec 4) :
    EncodeCond.Statement (.mcr c op1 crn rd op2 crm) := by
  simp [EncodeCond.Statement, encode, Instr.cond, BitVec.extractLsb'_or]

theorem EncodeCond.mrcOther (c : Cond) (op1 : BitVec 3) (crn : BitVec 4) (rd : Reg) (cp : BitVec 4) (op2 : BitVec 3) (crm : BitVec 4) :
    EncodeCond.Statement (.mrcOther c op1 crn rd cp op2 crm) := by
  simp [EncodeCond.Statement, encode, Instr.cond, BitVec.extractLsb'_or]

theorem EncodeCond.mcrOther (c : Cond) (op1 : BitVec 3) (crn : BitVec 4) (rd : Reg) (cp : BitVec 4) (op2 : BitVec 3) (crm : BitVec 4) :
    EncodeCond.Statement (.mcrOther c op1 crn rd cp op2 crm) := by
  simp [EncodeCond.Statement, encode, Instr.cond, BitVec.extractLsb'_or]

end Sys2Proof.Laws
end

