-- ==== Sys2Proof/Laws/Reset.lean ====
section
/-! SUPPORT. What the instruction that a reset abandons leaves, once for each operation (70_reset_and_hazards.md R490). -/

set_option Elab.async false

namespace Sys2Proof.Machine

/-- Every listed cell of a canonical memory is inside the address space. -/
theorem Memory.lt_of_wfFrom (m : Memory) {lo : Nat} (h : Memory.wfFrom lo m = true) : ∀ x ∈ m, x.1 < 2 ^ 32 := by
  induction m generalizing lo with
  | nil => simp
  | cons c t ih =>
    obtain ⟨a, v⟩ := c
    simp only [Memory.wfFrom, Bool.and_eq_true, decide_eq_true_eq] at h
    intro x hx
    rcases List.mem_cons.mp hx with rfl | hx
    · exact h.1.1.2
    · exact ih h.2 x hx

/-- The cells in which two canonical memories differ are inside the address space. -/
theorem changedCells_lt {old new : Memory} (ho : old.wf = true) (hn : new.wf = true) :
    ∀ a ∈ changedCells old new, a < 2 ^ 32 := by
  intro a ha
  obtain ⟨x, hx, rfl⟩ := List.mem_map.mp (List.mem_filter.mp ha).1
  rcases List.mem_append.mp hx with h | h
  · exact Memory.lt_of_wfFrom old ho x h
  · exact Memory.lt_of_wfFrom new hn x h

/-- The bytes left by an abandoned instruction change memory and the count of draws only. -/
theorem leavePartial_eq (new : Memory) (as : List Nat) (s : State) :
    leavePartial new as s = (s.withMem (leavePartial new as s).mem).withDraws (leavePartial new as s).draws := by
  induction as generalizing s with
  | nil => rfl
  | cons a as ih =>
    unfold leavePartial
    rw [ih]
    split <;> rfl

/-- All that the bytes left by an abandoned instruction can be: memory stays canonical, each byte is as before or as in
`new`. -/
theorem leavePartial_mem (new : Memory) {as : List Nat} {s : State} (hs : s.mem.wf = true) (ha : ∀ a ∈ as, a < 2 ^ 32) :
    (leavePartial new as s).mem.wf = true ∧
    ∀ b, (leavePartial new as s).mem.read b = s.mem.read b ∨ (leavePartial new as s).mem.read b = new.read b := by
  induction as generalizing s with
  | nil => exact ⟨hs, fun _ => .inl rfl⟩
  | cons a as ih =>
    have has : ∀ x ∈ as, x < 2 ^ 32 := fun x hx => ha x (List.mem_cons_of_mem _ hx)
    unfold leavePartial
    split
    · obtain ⟨h1, h2⟩ := ih (s := s.drawn.withMem (s.mem.write a (new.read a)))
        (Memory.wf_write _ _ _ hs (ha a (List.mem_cons_self ..))) has
      refine ⟨h1, fun b => ?_⟩
      rcases h2 b with h | h
      · by_cases hb : b = a
        · subst hb; exact .inr (h.trans (Memory.read_write_same _ _ _ hs))
        · exact .inl (h.trans (Memory.read_write_of_ne _ _ hb))
      · exact .inr h
    · exact ih (s := s.drawn) hs has

/-- The state in which a reset is taken differs from the present one in memory and the count of draws only. -/
theorem abandon_eq (s : State) : abandon s = (s.withMem (abandon s).mem).withDraws (abandon s).draws := by
  unfold abandon
  split
  · rw [leavePartial_eq]; rfl
  · rfl
  · rfl

/-- All that the memory in which a reset is taken can be, where the abandoned instruction would have kept it canonical. -/
theorem abandon_mem {s : State} (hs : s.mem.wf = true) (hk : ∀ t, runInstruction s = .next t → t.mem.wf = true) :
    (abandon s).mem.wf = true ∧
    ∀ a, (abandon s).mem.read a = s.mem.read a ∨
      ∃ t, runInstruction s = .next t ∧ (abandon s).mem.read a = t.mem.read a := by
  unfold abandon
  split
  · rename_i t h
    obtain ⟨h1, h2⟩ := leavePartial_mem t.mem (s := s.withDraws t.draws) hs (changedCells_lt hs (hk t h))
    exact ⟨h1, fun a => (h2 a).imp id fun h' => ⟨t, h, h'⟩⟩
  · exact ⟨hs, fun _ => .inl rfl⟩
  · exact ⟨hs, fun _ => .inl rfl⟩

end Sys2Proof.Machine
end

