-- ==== Sys2Proof/Tests/Slice0.lean ====
section
/-! SUPPORT. Tests on fixed values, their results taken from the spec, and for each statement with hypotheses a witness that
meets them. -/

set_option Elab.async false
set_option maxRecDepth 4096

namespace Sys2Proof.Tests

open Sys2Proof Sys2Proof.Machine

/-! ### Well-formedness refuses -/

/-- Post-indexed with W set is the translate form's word (45_single_data_transfer.md R304). -/
theorem test_wf_refuses_translate_indexing :
    ∀ i ∈ [Instr.ldrImm .al ⟨false, true, true⟩ 1#4 0#4 0#12, .ldrReg .al ⟨false, false, true⟩ 1#4 0#4 ⟨0#5, .lsl, 2#4⟩,
      .strImm .al ⟨false, true, true⟩ 1#4 0#4 0#12, .strReg .al ⟨false, false, true⟩ 1#4 0#4 ⟨0#5, .lsl, 2#4⟩,
      .ldrbImm .al ⟨false, true, true⟩ 1#4 0#4 0#12, .ldrbReg .al ⟨false, false, true⟩ 1#4 0#4 ⟨0#5, .lsl, 2#4⟩,
      .strbImm .al ⟨false, true, true⟩ 1#4 0#4 0#12, .strbReg .al ⟨false, false, true⟩ 1#4 0#4 ⟨0#5, .lsl, 2#4⟩],
    i.wf = false := by decide

/-- The comments of IMB and IMBRange are not SWI's (48_swap_swi_imb.md R380, R381). -/
theorem test_wf_refuses_barrier_comment :
    ∀ i ∈ [Instr.swi .al 0xF00000#24, .swi .al 0xF00001#24], i.wf = false := by decide

/-- Coprocessor 15 is not another coprocessor (49_coprocessor_undefined.md R390). -/
theorem test_wf_refuses_other_is_fifteen :
    ∀ i ∈ [Instr.mrcOther .al 0#3 0#4 0#4 15#4 0#3 0#4, .mcrOther .al 0#3 0#4 0#4 15#4 0#3 0#4], i.wf = false := by
  decide

/-! ### Decoding -/

/-- Words of the formats DPI (30_encoding.md R142), written bit by bit. -/
theorem test_decode_dataImmediate : ∀ x ∈ ([
    (0b1110_001_0000_0_0001_0111_0001_10100101#32, .andImm .al false 1#4 7#4 ⟨1#4, 0xA5#8⟩),
    (0b0001_001_0001_1_0010_1000_0100_10100100#32, .eorImm .ne true 2#4 8#4 ⟨4#4, 0xA4#8⟩),
    (0b1010_001_0010_0_0011_1001_0111_10100111#32, .subImm .ge false 3#4 9#4 ⟨7#4, 0xA7#8⟩),
    (0b0100_001_0011_1_0100_1010_1010_10100110#32, .rsbImm .mi true 4#4 10#4 ⟨10#4, 0xA6#8⟩),
    (0b1000_001_0100_0_0101_1011_1101_10100001#32, .addImm .hi false 5#4 11#4 ⟨13#4, 0xA1#8⟩),
    (0b0010_001_0101_1_0110_1100_0000_10100000#32, .adcImm .cs true 6#4 12#4 ⟨0#4, 0xA0#8⟩),
    (0b0111_001_0110_0_0111_0000_0011_10100011#32, .sbcImm .vc false 7#4 0#4 ⟨3#4, 0xA3#8⟩),
    (0b1001_001_0111_1_1000_0001_0110_10100010#32, .rscImm .ls true 8#4 1#4 ⟨6#4, 0xA2#8⟩),
    (0b1011_001_1000_1_1001_0000_1001_10101101#32, .tstImm .lt 9#4 ⟨9#4, 0xAD#8⟩),
    (0b1100_001_1001_1_1010_0000_1100_10101100#32, .teqImm .gt 10#4 ⟨12#4, 0xAC#8⟩),
    (0b1101_001_1010_1_1011_0000_1111_10101111#32, .cmpImm .le 11#4 ⟨15#4, 0xAF#8⟩),
    (0b0110_001_1011_1_1100_0000_0010_10101110#32, .cmnImm .vs 12#4 ⟨2#4, 0xAE#8⟩),
    (0b0101_001_1100_0_1101_0110_0101_10101001#32, .orrImm .pl false 13#4 6#4 ⟨5#4, 0xA9#8⟩),
    (0b0011_001_1101_1_0000_0111_1000_10101000#32, .movImm .cc true 7#4 ⟨8#4, 0xA8#8⟩),
    (0b0000_001_1110_0_0000_1000_1011_10101011#32, .bicImm .eq false 0#4 8#4 ⟨11#4, 0xAB#8⟩),
    (0b1110_001_1111_1_0000_1001_1110_10101010#32, .mvnImm .al true 9#4 ⟨14#4, 0xAA#8⟩)] : List (Word × Instr)),
    decode x.1 = .ok x.2 := by decide +kernel

/-- Words of the formats DPS (30_encoding.md R142), written bit by bit. -/
theorem test_decode_dataRegister : ∀ x ∈ ([
    (0b0010_000_0000_0_0001_0111_00011_00_0_0011#32, .andReg .cs false 1#4 7#4 ⟨3#5, .lsl, 3#4⟩),
    (0b0111_000_0001_1_0010_1000_01000_01_0_0100#32, .eorReg .vc true 2#4 8#4 ⟨8#5, .lsr, 4#4⟩),
    (0b1001_000_0010_0_0011_1001_01101_10_0_0101#32, .subReg .ls false 3#4 9#4 ⟨13#5, .asr, 5#4⟩),
    (0b1011_000_0011_1_0100_1010_10010_11_0_0110#32, .rsbReg .lt true 4#4 10#4 ⟨18#5, .ror, 6#4⟩),
    (0b1100_000_0100_0_0101_1011_10111_00_0_0111#32, .addReg .gt false 5#4 11#4 ⟨23#5, .lsl, 7#4⟩),
    (0b1101_000_0101_1_0110_1100_11100_01_0_1000#32, .adcReg .le true 6#4 12#4 ⟨28#5, .lsr, 8#4⟩),
    (0b0110_000_0110_0_0111_0000_00001_10_0_1001#32, .sbcReg .vs false 7#4 0#4 ⟨1#5, .asr, 9#4⟩),
    (0b0101_000_0111_1_1000_0001_00110_11_0_1010#32, .rscReg .pl true 8#4 1#4 ⟨6#5, .ror, 10#4⟩),
    (0b0011_000_1000_1_1001_0000_01011_00_0_1011#32, .tstReg .cc 9#4 ⟨11#5, .lsl, 11#4⟩),
    (0b0000_000_1001_1_1010_0000_10000_01_0_1100#32, .teqReg .eq 10#4 ⟨16#5, .lsr, 12#4⟩),
    (0b1110_000_1010_1_1011_0000_10101_10_0_1101#32, .cmpReg .al 11#4 ⟨21#5, .asr, 13#4⟩),
    (0b1110_000_1011_1_1100_0000_11010_11_0_1110#32, .cmnReg .al 12#4 ⟨26#5, .ror, 14#4⟩),
    (0b0001_000_1100_0_1101_0110_11111_00_0_0000#32, .orrReg .ne false 13#4 6#4 ⟨31#5, .lsl, 0#4⟩),
    (0b1010_000_1101_1_0000_0111_00100_01_0_0001#32, .movReg .ge true 7#4 ⟨4#5, .lsr, 1#4⟩),
    (0b0100_000_1110_0_0000_1000_01001_10_0_0010#32, .bicReg .mi false 0#4 8#4 ⟨9#5, .asr, 2#4⟩),
    (0b1000_000_1111_1_0000_1001_01110_11_0_0011#32, .mvnReg .hi true 9#4 ⟨14#5, .ror, 3#4⟩)] : List (Word × Instr)),
    decode x.1 = .ok x.2 := by decide +kernel

/-- Words of the formats DPR (30_encoding.md R142), written bit by bit. -/
theorem test_decode_dataRegisterShift : ∀ x ∈ ([
    (0b1101_000_0000_0_0001_0111_1001_0_01_1_0100#32, .andRsr .le false 1#4 7#4 ⟨9#4, .lsr, 4#4⟩),
    (0b0110_000_0001_1_0010_1000_1010_0_10_1_0101#32, .eorRsr .vs true 2#4 8#4 ⟨10#4, .asr, 5#4⟩),
    (0b0101_000_0010_0_0011_1001_1011_0_11_1_0110#32, .subRsr .pl false 3#4 9#4 ⟨11#4, .ror, 6#4⟩),
    (0b0011_000_0011_1_0100_1010_1100_0_00_1_0111#32, .rsbRsr .cc true 4#4 10#4 ⟨12#4, .lsl, 7#4⟩),
    (0b0000_000_0100_0_0101_1011_1101_0_01_1_1000#32, .addRsr .eq false 5#4 11#4 ⟨13#4, .lsr, 8#4⟩),
    (0b1110_000_0101_1_0110_1100_1110_0_10_1_1001#32, .adcRsr .al true 6#4 12#4 ⟨14#4, .asr, 9#4⟩),
    (0b1110_000_0110_0_0111_0000_0000_0_11_1_1010#32, .sbcRsr .al false 7#4 0#4 ⟨0#4, .ror, 10#4⟩),
    (0b0001_000_0111_1_1000_0001_0001_0_00_1_1011#32, .rscRsr .ne true 8#4 1#4 ⟨1#4, .lsl, 11#4⟩),
    (0b1010_000_1000_1_1001_0000_0010_0_01_1_1100#32, .tstRsr .ge 9#4 ⟨2#4, .lsr, 12#4⟩),
    (0b0100_000_1001_1_1010_0000_0011_0_10_1_1101#32, .teqRsr .mi 10#4 ⟨3#4, .asr, 13#4⟩),
    (0b1000_000_1010_1_1011_0000_0100_0_11_1_1110#32, .cmpRsr .hi 11#4 ⟨4#4, .ror, 14#4⟩),
    (0b0010_000_1011_1_1100_0000_0101_0_00_1_0000#32, .cmnRsr .cs 12#4 ⟨5#4, .lsl, 0#4⟩),
    (0b0111_000_1100_0_1101_0110_0110_0_01_1_0001#32, .orrRsr .vc false 13#4 6#4 ⟨6#4, .lsr, 1#4⟩),
    (0b1001_000_1101_1_0000_0111_0111_0_10_1_0010#32, .movRsr .ls true 7#4 ⟨7#4, .asr, 2#4⟩),
    (0b1011_000_1110_0_0000_1000_1000_0_11_1_0011#32, .bicRsr .lt false 0#4 8#4 ⟨8#4, .ror, 3#4⟩),
    (0b1100_000_1111_1_0000_1001_1001_0_00_1_0100#32, .mvnRsr .gt true 9#4 ⟨9#4, .lsl, 4#4⟩)] : List (Word × Instr)),
    decode x.1 = .ok x.2 := by decide +kernel

/-- Words of the formats MRS, MSRR, MSRI (30_encoding.md R142), written bit by bit. -/
theorem test_decode_psr : ∀ x ∈ ([
    (0b1110_00010_1_00_1111_0011_0000_0000_0000#32, .mrs .al true 3#4),
    (0b0001_00010_0_10_1001_1111_0000_0000_0101#32, .msrReg .ne false 9#4 5#4),
    (0b1110_00110_1_10_1000_1111_0010_11110000#32, .msrImm .al true 8#4 ⟨2#4, 0xF0#8⟩)] : List (Word × Instr)),
    decode x.1 = .ok x.2 := by decide +kernel

/-- Words of the formats MUL, MULL (30_encoding.md R142), written bit by bit. -/
theorem test_decode_multiply : ∀ x ∈ ([
    (0b1110_000000_0_1_0001_0000_0011_1001_0100#32, .mul .al true 1#4 3#4 4#4),
    (0b1110_000000_1_0_0001_0010_0011_1001_0100#32, .mla .al false 1#4 2#4 3#4 4#4),
    (0b1010_00001_0_0_0_0001_0010_0011_1001_0100#32, .umull .ge false 1#4 2#4 3#4 4#4),
    (0b1010_00001_0_1_1_0001_0010_0011_1001_0100#32, .umlal .ge true 1#4 2#4 3#4 4#4),
    (0b1010_00001_1_0_1_0001_0010_0011_1001_0100#32, .smull .ge true 1#4 2#4 3#4 4#4),
    (0b1010_00001_1_1_0_0001_0010_0011_1001_0100#32, .smlal .ge false 1#4 2#4 3#4 4#4)] : List (Word × Instr)),
    decode x.1 = .ok x.2 := by decide +kernel

/-- Words of the formats SWP (30_encoding.md R142), written bit by bit. -/
theorem test_decode_swap : ∀ x ∈ ([
    (0b1110_00010_0_00_0101_0110_0000_1001_0111#32, .swp .al 5#4 6#4 7#4),
    (0b1110_00010_1_00_0101_0110_0000_1001_0111#32, .swpb .al 5#4 6#4 7#4)] : List (Word × Instr)),
    decode x.1 = .ok x.2 := by decide +kernel

/-- Words of the formats HWR, HWI (30_encoding.md R142), written bit by bit. -/
theorem test_decode_halfword : ∀ x ∈ ([
    (0b1110_000_1_1_0_0_0_0101_0110_0000_1_01_1_0111#32, .strhReg .al ⟨true, true, false⟩ 5#4 6#4 7#4),
    (0b1110_000_1_0_1_1_0_0101_0110_1010_1_01_1_0011#32, .strhImm .al ⟨true, false, true⟩ 5#4 6#4 0xA3#8),
    (0b1110_000_0_1_0_0_1_0101_0110_0000_1_01_1_0111#32, .ldrhReg .al ⟨false, true, false⟩ 5#4 6#4 7#4),
    (0b1110_000_0_0_1_0_1_0101_0110_1010_1_01_1_0011#32, .ldrhImm .al ⟨false, false, false⟩ 5#4 6#4 0xA3#8),
    (0b1110_000_1_1_0_1_1_0101_0110_0000_1_10_1_0111#32, .ldrsbReg .al ⟨true, true, true⟩ 5#4 6#4 7#4),
    (0b1110_000_1_0_1_0_1_0101_0110_1010_1_10_1_0011#32, .ldrsbImm .al ⟨true, false, false⟩ 5#4 6#4 0xA3#8),
    (0b1110_000_1_1_0_0_1_0101_0110_0000_1_11_1_0111#32, .ldrshReg .al ⟨true, true, false⟩ 5#4 6#4 7#4),
    (0b1110_000_1_0_1_1_1_0101_0110_1010_1_11_1_0011#32, .ldrshImm .al ⟨true, false, true⟩ 5#4 6#4 0xA3#8)] : List (Word × Instr)),
    decode x.1 = .ok x.2 := by decide +kernel

/-- Words of the formats SDTI, SDTR with P = 0 and W = 1 (30_encoding.md R142), written bit by bit. -/
theorem test_decode_translate : ∀ x ∈ ([
    (0b1110_01_0_0_0_0_1_1_0101_0110_100111000011#32, .ldrtImm .al false 5#4 6#4 0x9C3#12),
    (0b1110_01_1_0_1_0_1_1_0101_0110_10101_10_0_0111#32, .ldrtReg .al true 5#4 6#4 ⟨21#5, .asr, 7#4⟩),
    (0b1110_01_0_0_0_0_1_0_0101_0110_100111000011#32, .strtImm .al false 5#4 6#4 0x9C3#12),
    (0b1110_01_1_0_1_0_1_0_0101_0110_10101_10_0_0111#32, .strtReg .al true 5#4 6#4 ⟨21#5, .asr, 7#4⟩),
    (0b1110_01_0_0_0_1_1_1_0101_0110_100111000011#32, .ldrbtImm .al false 5#4 6#4 0x9C3#12),
    (0b1110_01_1_0_1_1_1_1_0101_0110_10101_10_0_0111#32, .ldrbtReg .al true 5#4 6#4 ⟨21#5, .asr, 7#4⟩),
    (0b1110_01_0_0_0_1_1_0_0101_0110_100111000011#32, .strbtImm .al false 5#4 6#4 0x9C3#12),
    (0b1110_01_1_0_1_1_1_0_0101_0110_10101_10_0_0111#32, .strbtReg .al true 5#4 6#4 ⟨21#5, .asr, 7#4⟩)] : List (Word × Instr)),
    decode x.1 = .ok x.2 := by decide +kernel

/-- Words of the formats SDTI, SDTR (30_encoding.md R142), written bit by bit. -/
theorem test_decode_single : ∀ x ∈ ([
    (0b1011_01_0_1_1_0_1_1_0101_0110_100111000011#32, .ldrImm .lt ⟨true, true, true⟩ 5#4 6#4 0x9C3#12),
    (0b1011_01_1_1_0_0_0_1_0101_0110_10011_11_0_0111#32, .ldrReg .lt ⟨true, false, false⟩ 5#4 6#4 ⟨19#5, .ror, 7#4⟩),
    (0b1011_01_0_1_1_0_0_0_0101_0110_100111000011#32, .strImm .lt ⟨true, true, false⟩ 5#4 6#4 0x9C3#12),
    (0b1011_01_1_1_0_0_1_0_0101_0110_10011_11_0_0111#32, .strReg .lt ⟨true, false, true⟩ 5#4 6#4 ⟨19#5, .ror, 7#4⟩),
    (0b1011_01_0_0_1_1_0_1_0101_0110_100111000011#32, .ldrbImm .lt ⟨false, true, false⟩ 5#4 6#4 0x9C3#12),
    (0b1011_01_1_0_0_1_0_1_0101_0110_10011_11_0_0111#32, .ldrbReg .lt ⟨false, false, false⟩ 5#4 6#4 ⟨19#5, .ror, 7#4⟩),
    (0b1011_01_0_1_1_1_1_0_0101_0110_100111000011#32, .strbImm .lt ⟨true, true, true⟩ 5#4 6#4 0x9C3#12),
    (0b1011_01_1_1_0_1_0_0_0101_0110_10011_11_0_0111#32, .strbReg .lt ⟨true, false, false⟩ 5#4 6#4 ⟨19#5, .ror, 7#4⟩)] : List (Word × Instr)),
    decode x.1 = .ok x.2 := by decide +kernel

/-- Words of the formats BDT (30_encoding.md R142), written bit by bit. -/
theorem test_decode_block : ∀ x ∈ ([
    (0b1110_100_1_0_1_0_1_1101_1000010000100001#32, .ldm .al ⟨true, false, true, false⟩ 13#4 0x8421#16),
    (0b1110_100_0_1_0_1_0_1100_0100000000000011#32, .stm .al ⟨false, true, false, true⟩ 12#4 0x4003#16)] : List (Word × Instr)),
    decode x.1 = .ok x.2 := by decide +kernel

/-- Words of the formats BR (30_encoding.md R142), written bit by bit. -/
theorem test_decode_branch : ∀ x ∈ ([
    (0b0000_101_0_111111111111111111111110#32, .b .eq 0xFFFFFE#24),
    (0b1110_101_1_000000000000000000111110#32, .bl .al 0x3E#24)] : List (Word × Instr)),
    decode x.1 = .ok x.2 := by decide +kernel

/-- Words of the formats SWI with the comments of R380, R381 (30_encoding.md R142), written bit by bit. -/
theorem test_decode_swi : ∀ x ∈ ([
    (0b1110_1111_111100000000000000000000#32, .imb .al),
    (0b1110_1111_111100000000000000000001#32, .imbRange .al),
    (0b1110_1111_111100000000000000000010#32, .swi .al 0xF00002#24)] : List (Word × Instr)),
    decode x.1 = .ok x.2 := by decide +kernel

/-- Words of the formats CDT, CDO, CRT, UND (30_encoding.md R142), written bit by bit. -/
theorem test_decode_coprocessor : ∀ x ∈ ([
    (0b1110_110_1_0_1_0_1_0101_0110_0111_10011100#32, .ldc .al true false true false 5#4 6#4 7#4 0x9C#8),
    (0b1110_110_0_1_0_1_0_0101_0110_1111_10011100#32, .stc .al false true false true 5#4 6#4 15#4 0x9C#8),
    (0b1110_1110_1001_0101_0110_1111_101_0_0011#32, .cdp .al 9#4 5#4 6#4 15#4 5#3 3#4),
    (0b1110_1110_000_1_1000_0110_1111_001_1_0111#32, .mrc .al 0#3 8#4 6#4 1#3 7#4),
    (0b1110_1110_010_0_1000_0110_1111_001_1_0111#32, .mcr .al 2#3 8#4 6#4 1#3 7#4),
    (0b1110_1110_011_1_1000_0110_1110_001_1_0111#32, .mrcOther .al 3#3 8#4 6#4 14#4 1#3 7#4),
    (0b1110_1110_100_0_1000_0110_0000_001_1_0111#32, .mcrOther .al 4#3 8#4 6#4 0#4 1#3 7#4),
    (0b1110_011_10101011110011011110_1_0110#32, .undefined .al 0xABCDE#20 6#4)] : List (Word × Instr)),
    decode x.1 = .ok x.2 := by decide +kernel

/-- Reserved words are refused by name (30_encoding.md R160 to R162): the condition 0b1111, a MUL with bits 15:12 set, the
multiply space 0b010, the control space. -/
theorem test_decode_refuses :
    decode 0xF0000000#32 = .error .nvCondition ∧ decode 0xE0001090#32 = .error .shouldBeViolated ∧
    decode 0xE0400090#32 = .error .unallocated ∧ decode 0xE1000010#32 = .error .unallocated ∧
    decode 0xE00000D0#32 = .error .unallocated := by decide +kernel

/-- The host's numbering of a word's bits is the machine's. -/
theorem test_decode_table_word :
    decodeTableWord 32 0xE21100FF = some (.andImm .al true 1#4 0#4 ⟨0#4, 0xFF#8⟩) := by decide +kernel

/-! ### Single steps, with results from the spec's examples -/

/-- The next state of an outcome, if there is one. -/
def nextOf : Result → Option State
  | .next s => some s
  | _ => none

/-- The refusal of an outcome, if there is one. -/
def refusalIn : Result → Option Refusal
  | .refused r => some r
  | _ => none

/-- Registers of the current mode set one after the other. -/
def withValues (s : State) (l : List (Reg × Word)) : State := l.foldl (fun s x => s.setReg x.1 x.2) s

/-- Supervisor mode at 0x8000 with these registers. -/
def svc (l : List (Reg × Word)) : State := withValues (State.reset.withPc 0x8000#32) l

/-- The same with these flags. -/
def svcFlags (n z c v : Bool) (l : List (Reg × Word)) : State :=
  (svc l).withFlags { n := n, z := z, c := c, v := v }

/-- User mode at 0x8000 with these registers and both interrupts enabled. -/
def usr (l : List (Reg × Word)) : State :=
  withValues ((State.reset.withPc 0x8000#32).withCpsr { flags := Flags.none, i := false, f := false, mode := .usr }) l

/-- The same with alignment checking on. -/
def aligned (s : State) : State :=
  s.withCp15 { s.cp15 with control := { s.cp15.control with a := true } }

/-- The same with big-endian byte order. -/
def bigEndian (s : State) : State :=
  s.withCp15 { s.cp15 with control := { s.cp15.control with b := true } }

/-- A word of memory set. -/
def withWord (s : State) (a : Nat) (v : Word) : State := s.withMem (s.mem.writeWord a v)

/-- Register, flags and pc after an instruction. -/
def after (i : Instr) (s : State) (n : Reg) : Option (Word × Flags × Word) :=
  (nextOf (exec i s)).map fun t => (t.readReg n, t.cpsr.flags, t.pc)

/-- 42_data_processing.md R214: ANDS R0,R1,#0xFF with C set. -/
theorem test_ands : after (.andImm .al true 1#4 0#4 ⟨0#4, 0xFF#8⟩) (svcFlags false false true false [(1#4, 0x12345678#32)]) 0#4 =
    some (0x78#32, ⟨false, false, true, false⟩, 0x8004#32) := by decide +kernel

/-- 42_data_processing.md R216: SUBS with a signed overflow. -/
theorem test_subs_overflow : after (.subReg .al true 1#4 0#4 ⟨0#5, .lsl, 2#4⟩)
    (svc [(1#4, 0x80000000#32), (2#4, 1#32)]) 0#4 =
    some (0x7FFFFFFF#32, ⟨false, false, true, true⟩, 0x8004#32) := by decide +kernel

/-- 42_data_processing.md R218: ADDS that wraps to zero. -/
theorem test_adds_wraps : after (.addReg .al true 1#4 0#4 ⟨0#5, .lsl, 2#4⟩)
    (svc [(1#4, 0xFFFFFFFF#32), (2#4, 1#32)]) 0#4 = some (0#32, ⟨false, true, true, false⟩, 0x8004#32) := by decide +kernel

/-- 42_data_processing.md R220: SBCS with a borrow. -/
theorem test_sbcs_borrow : after (.sbcReg .al true 3#4 1#4 ⟨0#5, .lsl, 5#4⟩) (svc []) 1#4 =
    some (0xFFFFFFFF#32, ⟨true, false, false, false⟩, 0x8004#32) := by decide +kernel

/-- 42_data_processing.md R226: ORRS with LSR by a register that holds 32. -/
theorem test_orrs_lsr_32 : after (.orrRsr .al true 1#4 0#4 ⟨3#4, .lsr, 2#4⟩)
    (svc [(2#4, 0x80000000#32), (3#4, 32#32)]) 0#4 = some (0#32, ⟨false, true, true, false⟩, 0x8004#32) := by decide +kernel

/-- 42_data_processing.md R227: MOVS R0,R1,RRX with C set. -/
theorem test_movs_rrx : after (.movReg .al true 0#4 ⟨0#5, .ror, 1#4⟩)
    (svcFlags false false true false [(1#4, 1#32)]) 0#4 =
    some (0x80000000#32, ⟨true, false, true, false⟩, 0x8004#32) := by decide +kernel

/-- 43_psr_transfer.md R255: in User mode MSR changes the flags only. -/
theorem test_msr_user : (nextOf (exec (.msrImm .al false 9#4 ⟨0#4, 0x13#8⟩) (usr []))).map (·.cpsr) =
    some { flags := Flags.none, i := false, f := false, mode := .usr } := by decide +kernel

/-- 44_multiply.md R277: SMULL of -1 and 2. -/
theorem test_smull : ((nextOf (exec (.smull .al false 1#4 0#4 3#4 2#4)
    (svc [(2#4, 0xFFFFFFFF#32), (3#4, 2#32)]))).map fun t => (t.readReg 1#4, t.readReg 0#4)) =
    some (0xFFFFFFFF#32, 0xFFFFFFFE#32) := by decide +kernel

/-- 45_single_data_transfer.md R296: LDR from 0x1001 rotates. -/
theorem test_ldr_misaligned : after (.ldrImm .al ⟨true, true, false⟩ 1#4 0#4 1#12)
    (withWord (svc [(1#4, 0x1000#32)]) 0x1000 0x44332211#32) 0#4 =
    some (0x11443322#32, Flags.none, 0x8004#32) := by decide +kernel

/-- 46_halfword_signed_transfer.md R327: LDRSB takes another lane of the word when big-endian. -/
theorem test_ldrsb_big_endian : after (.ldrsbImm .al ⟨true, true, false⟩ 1#4 0#4 0#8)
    (bigEndian (withWord (svc [(1#4, 0x1000#32)]) 0x1000 0x8899AABB#32)) 0#4 =
    some (0xFFFFFF88#32, Flags.none, 0x8004#32) := by decide +kernel

/-- 46_halfword_signed_transfer.md R326: STRH leaves the other half of the word. -/
theorem test_strh : ((nextOf (exec (.strhImm .al ⟨true, true, false⟩ 1#4 0#4 0#8)
    (withWord (svc [(0#4, 0x12345678#32), (1#4, 0x1000#32)]) 0x1000 0x8899AABB#32))).map
      fun t => t.mem.readWord 0x1000) = some 0x88995678#32 := by decide +kernel

/-- 47_block_data_transfer.md R344: LDMDB R0!,{R1,R2}. -/
theorem test_ldmdb : ((nextOf (exec (.ldm .al ⟨true, false, false, true⟩ 0#4 6#16)
    (withWord (withWord (svc [(0#4, 0x1000#32)]) 0xFF8 0xAAAAAAAA#32) 0xFFC 0xBBBBBBBB#32))).map
      fun t => (t.readReg 0#4, t.readReg 1#4, t.readReg 2#4)) =
    some (0xFF8#32, 0xAAAAAAAA#32, 0xBBBBBBBB#32) := by decide +kernel

/-- 47_block_data_transfer.md R346: STMIA R0!,{R1,R2}. -/
theorem test_stmia : ((nextOf (exec (.stm .al ⟨false, true, false, true⟩ 0#4 6#16)
    (svc [(0#4, 0x1000#32), (1#4, 0x11#32), (2#4, 0x22#32)]))).map
      fun t => (t.readReg 0#4, t.mem)) = some (0x1008#32, [(0x1000, 0x11#8), (0x1004, 0x22#8)]) := by decide +kernel

/-- 41_branch.md R192: BL 0x200 at 0x100. -/
theorem test_bl : after (.bl .al 0x3E#24) (State.reset.withPc 0x100#32) 14#4 =
    some (0x104#32, Flags.none, 0x200#32) := by decide +kernel

/-- 48_swap_swi_imb.md R371: SWP R0,R1,[R2]. -/
theorem test_swp : ((nextOf (exec (.swp .al 2#4 0#4 1#4) (svc [(1#4, 1#32), (2#4, 0x4000#32), (0#4, 7#32)]))).map
      fun t => (t.readReg 0#4, t.mem)) = some (0#32, [(0x4000, 1#8)]) := by decide +kernel

/-- 48_swap_swi_imb.md R375: SWI at 0x8000 in User mode. -/
theorem test_swi : ((nextOf (exec (.swi .al 0x123456#24) (usr []))).map
      fun t => (t.pc, t.cpsr.mode, t.cpsr.i, t.cpsr.f, t.regs.r14Svc, t.spsr.svc.m)) =
    some (8#32, .svc, true, false, 0x8004#32, 0b10000#5) := by decide +kernel

/-- 49_coprocessor_undefined.md R398: MRC in User mode traps. -/
theorem test_mrc_user : ((nextOf (exec (.mrc .al 0#3 1#4 0#4 0#3 0#4) (usr []))).map
      fun t => (t.pc, t.cpsr.mode, t.regs.r14Und)) = some (4#32, .und, 0x8004#32) := by decide +kernel

/-- 60_exceptions.md R461: a Data Abort with FIQ asserted ends at the FIQ vector with R14_fiq = 0x14. The instruction is
LDR R0,[R1], its read aborted. -/
theorem test_abort_then_fiq :
    ((nextOf (step (((usr [(1#4, 0x4000#32)]).withFetchWord 32 0xE5910000).withEnv
      [{ fiqLine := true, irqLine := true, reset := false, aborts := [⟨0x4000#32, 4, .read⟩] }]))).map
      fun t => (t.pc, t.cpsr.mode, t.regs.r14Fiq, t.regs.r14Abt, t.spsr.fiq.m)) =
    some (0x1C#32, .fiq, 0x14#32, 0x8008#32, 0b10111#5) := by decide +kernel

/-- 20_memory.md R114: a word stored and not covered by an IMB is not executed. -/
theorem test_stale_word : (match step ((svc []).withStale [⟨0x8000#32, []⟩]) with
    | .fault .staleInstruction => true
    | _ => false) = true := by decide +kernel

/-- 48_swap_swi_imb.md R383: where a change of the mapping moves the instructions, the next fetch awaits an IMB. -/
theorem test_mapping_changed :
    refusalIn (step ((svc []).withOldMaps [{ m := true, ttb := 0#18, tlb := [], mem := [], covered := [] }])) =
    some .mappingChanged := by decide +kernel

/-- 10_state.md R78: the translation cached first is used while it is not invalidated: the small page, not the section
that was walked for its neighbour. -/
theorem test_oldest_translation :
    (match tlbLookup 0x123#32 (State.reset.withTlb [⟨.small, 0#32, 0x401#32, 0x00200FF2#32⟩,
        ⟨.sectionMap, 0x1000#32, 0x00100C02#32, 0#32⟩]) with
      | .ok e _ => e.physical 0x123#32
      | _ => 0#32) = 0x00200123#32 := by decide +kernel

/-- 70_reset_and_hazards.md R506: after a User-bank LDM a banked register may not be named. -/
theorem test_bank_hazard : refusalIn (step (((svc []).withFetchWord 32 0xE1A0000D).withBankHazard true)) =
    some .bankedAfterUserLdm := by decide +kernel

/-- The word placed for the first step is the one that runs (log 35). -/
theorem test_fetch_word : (nextOf (step (State.reset.withFetchWord 32 0xE3A00005))).map (fun t => (t.readReg 0#4, t.pc)) =
    some (5#32, 4#32) := by decide +kernel

/-! ### Witnesses: for each statement with hypotheses, states and operands that meet them, clause by clause -/

theorem witness_EncodeThenDecode :
    (Instr.swi .al 0xF00002#24).wf = true ∧ (Instr.ldrImm .al ⟨false, true, false⟩ 1#4 0#4 0#12).wf = true ∧
    (Instr.mrcOther .al 0#3 0#4 0#4 14#4 0#3 0#4).wf = true := by decide +kernel

theorem witness_DecodeThenEncode : decode 0xEFF00002#32 = .ok (.swi .al 0xF00002#24) := by decide +kernel

/-- A state whose next word is `w`. -/
def running (w : Word) : State := withWord State.reset 0 w

/-- Where the fetch of those states goes. -/
def reached (a : Word) : Reached := { pa := a, rom := false }

/-- The parameter NV_BEHAVIOUR = never-execute. -/
def never (s : State) : State := s.withPlat { s.plat with nvNeverExecutes := true }

theorem witness_NeverCondition :
    ((0xF0000000#32).extractLsb' 28 4 = 15#4) ∧
    (∀ s ∈ [running 0xF0000000#32, never (running 0xFFFFFFFF#32)],
      s.inputs.reset = false ∧ mappingOpen s s.pc = false ∧ reach .fetch s.privileged 4 s.pc s = .ok (reached 0#32) s ∧
      staleAt s s.pc 0#32 = false ∧ (s.mem.readWord (wordCell 0#32)).extractLsb' 28 4 = 15#4 ∧
      s.pc ≠ 0xFFFFFFFC#32) ∧
    (running 0xF0000000#32).plat.nvNeverExecutes = false ∧
    (never (running 0xFFFFFFFF#32)).plat.nvNeverExecutes = true := by decide +kernel

theorem witness_CancelledOnlyAdvances :
    State.reset.cpsr.flags.pass (Instr.swi .eq 1#24).cond = false ∧
    (State.reset.withPc 0xFFFFFFF8#32).pc ≠ 0xFFFFFFFC#32 ∧
    (State.reset.withPc 0xFFFFFFFC#32).cpsr.flags.pass (Instr.swi .eq 1#24).cond = false := by decide +kernel

theorem witness_AluIsExact :
    (∀ op ∈ [DpOp.sub, .rsb, .add, .adc, .sbc, .rsc, .cmp, .cmn],
      (op.exact (0xFFFFFFFF#32).toNat (0x80000000#32).toNat true).isSome = true ∧
      (op.exact (0xFFFFFFFF#32).toInt (0x80000000#32).toInt true).isSome = true) ∧
    (∀ op ∈ [DpOp.and, .eor, .tst, .teq, .orr, .mov, .bic, .mvn], op.exact 0 0 false = none) := by decide +kernel

theorem witness_ShiftByImmediate : (0#5).toNat = 0 ∧ 0 < (1#5).toNat ∧ 0 < (31#5).toNat := by decide +kernel

theorem witness_ShiftByRegister :
    ((svc [(3#4, 0x100#32)]).readReg 3#4).toNat % 256 = 0 ∧
    0 < ((svc [(3#4, 1#32)]).readReg 3#4).toNat % 256 ∧
    ((svc [(3#4, 1#32)]).readReg 3#4).toNat % 256 < 32 ∧
    0 < ((svc [(3#4, 1#32)]).readReg 3#4).toNat % 256 % 32 ∧
    0 < ((svc [(3#4, 31#32)]).readReg 3#4).toNat % 256 ∧
    ((svc [(3#4, 31#32)]).readReg 3#4).toNat % 256 < 32 ∧
    0 < ((svc [(3#4, 31#32)]).readReg 3#4).toNat % 256 % 32 ∧
    ((svc [(3#4, 32#32)]).readReg 3#4).toNat % 256 = 32 ∧
    32 < ((svc [(3#4, 33#32)]).readReg 3#4).toNat % 256 ∧
    32 < ((svc [(3#4, 255#32)]).readReg 3#4).toNat % 256 ∧
    0 < ((svc [(3#4, 224#32)]).readReg 3#4).toNat % 256 ∧
    ((svc [(3#4, 224#32)]).readReg 3#4).toNat % 256 % 32 = 0 := by decide +kernel

theorem witness_DataResults :
    Runs .al State.reset ∧ Runs .ne (State.reset.withPc 0xFFFFFFF8#32) ∧
    (State.reset.withPc 0xFFFFFFFC#32).cpsr.flags.pass .al = true ∧ (State.reset.withPc 0xFFFFFFFC#32).pc = 0xFFFFFFFC#32 ∧ DpOp.cmp.compares = true ∧
    (14#4 : Reg) ≠ 15#4 ∧ (0#4 : Reg) ≠ 15#4 := by decide +kernel

theorem witness_DataWritesPc :
    DpOp.mov.compares = false ∧ State.reset.cpsr.flags.pass .al = true ∧ (usr []).spsrNow = none ∧
    (usr []).cpsr.flags.pass .al = true ∧ State.reset.spsrNow = some Spsr.atReset ∧
    Mode.ofBits Spsr.atReset.m = none ∧ Mode.ofBits 0b11111#5 = some .sys ∧
    (State.reset.withSpsr (State.reset.spsr.set .svc { Spsr.atReset with m := 0b11111#5 })).spsrNow =
      some { Spsr.atReset with m := 0b11111#5 } := by decide +kernel

theorem witness_DataWritesPc_forms (imm : RotatedImm) (x : ShiftedReg) :
    (∃ y, immInstr .mov .al true 0#4 15#4 imm = immInstr .mov .al true 0#4 15#4 y) ∧
    (∃ y, regInstr .mov .al true 0#4 15#4 x = regInstr .mov .al true 0#4 15#4 y) := ⟨⟨imm, rfl⟩, ⟨x, rfl⟩⟩

theorem witness_ForbiddenOperandsStop :
    State.reset.cpsr.flags.pass .al = true ∧
    singleOk .ldr (.imm 0#12) ⟨true, true, true⟩ 15#4 0#4 = false ∧
    singleOk .ldrb (.imm 0#12) ⟨true, true, false⟩ 1#4 15#4 = false ∧
    singleOk .str (.reg ⟨0#5, .lsl, 15#4⟩) ⟨true, true, false⟩ 1#4 0#4 = false ∧
    singleOk .ldrt (.imm 0#12) ⟨false, true, true⟩ 1#4 1#4 = false ∧
    halfOk (.imm 0#8) ⟨false, true, true⟩ 1#4 0#4 = false ∧ halfOk (.reg 1#4) ⟨true, true, true⟩ 1#4 0#4 = false ∧
    halfOk (.imm 0#8) ⟨true, true, false⟩ 1#4 15#4 = false ∧ halfOk (.reg 0#4) ⟨true, true, false⟩ 15#4 0#4 = true ∧
    singleOk .str (.reg ⟨0#5, .lsl, 1#4⟩) ⟨true, true, false⟩ 1#4 15#4 = true ∧
    inList 6#16 1#4 = true ∧ inList 6#16 15#4 = false ∧
    inList 6#16 2#4 = true ∧ (1#4 : Reg) < 2#4 ∧
    loadBlockOk ⟨false, true, true, false⟩ 0#4 6#16 = true ∧ storeBlockOk ⟨false, true, true, false⟩ 0#4 6#16 = true ∧
    (usr []).cpsr.mode = .usr ∧
    (State.reset.withCpsr { State.reset.cpsr with mode := .sys }).cpsr.mode = .sys ∧
    blockModeOk ⟨false, true, false, false⟩ .usr = true ∧
    2 ^ 32 < (wordAligned (blockStart ⟨false, true, false, false⟩ ((svc [(0#4, 0xFFFFFFFC#32)]).readReg 0#4) 6#16)).toNat +
      4 * (regsOf 6#16).length ∧
    loadBlockOk ⟨false, true, false, false⟩ 0#4 6#16 = true ∧
    storeBlockOk ⟨false, true, false, false⟩ 0#4 6#16 = true := by decide +kernel

theorem witness_MrsReads :
    Runs .al State.reset ∧ Runs .al (usr []) ∧ (14#4 : Reg) ≠ 15#4 ∧ (usr []).spsrNow = none ∧
    State.reset.spsrNow = some Spsr.atReset := by decide +kernel

theorem witness_MsrCpsr :
    Runs .al State.reset ∧ Runs .al (usr []) ∧ State.reset.cpsr.mode ≠ .usr ∧ (usr []).cpsr.mode = .usr ∧
    (8#4).getLsbD 0 = false ∧ (8#4).getLsbD 3 = true ∧ (1#4).getLsbD 0 = true ∧ (1#4).getLsbD 3 = false ∧
    Mode.ofBits ((0x1F#32 : Word).extractLsb' 0 5) = some .sys ∧ Mode.ofBits ((0x15#32 : Word).extractLsb' 0 5) = none := by
  decide +kernel

theorem witness_MsrOperand (s : State) :
    MsrOperand .al false 9#4 (.msrImm .al false 9#4 ⟨0#4, 0x1F#8⟩) (rotatedValue ⟨0#4, 0x1F#8⟩) s ∧
    MsrOperand .al true 9#4 (.msrReg .al true 9#4 14#4) (s.readReg 14#4) s :=
  ⟨.inl ⟨_, rfl, rfl⟩, .inr ⟨_, by decide, rfl, rfl⟩⟩

theorem witness_MsrSpsr :
    Runs .al (usr []) ∧ (usr []).spsrNow = none ∧ Runs .al State.reset ∧
    State.reset.spsrNow = some Spsr.atReset := by decide +kernel

theorem witness_MultiplyResults :
    Runs .al State.reset ∧ (0#4 : Reg) ≠ 15#4 ∧ (14#4 : Reg) ≠ 15#4 ∧ (0#4 : Reg) ≠ 1#4 ∧ (0#4 : Reg) ≠ 14#4 ∧
    (1#4 : Reg) ≠ 14#4 := by decide +kernel

theorem witness_ByteOrder :
    wordAligned 0xFFFFFFFC#32 = 0xFFFFFFFC#32 ∧ wordAligned 0x1000#32 = 0x1000#32 := by decide +kernel

/-- The same with this memory map. -/
def mapped (s : State) (l : List Region) : State := s.withPlat { s.plat with regions := l }

/-- The same with this access aborted in the present step. -/
def aborting (s : State) (x : AbortedAccess) : State := s.withEnv [{ Inputs.quiet with aborts := [x] }]

theorem witness_AccessWithMmuOff :
    State.reset.cp15.control.m = false ∧
    (aborting State.reset ⟨0xFFFFFFFF#32, 1, .write⟩).aborted 0xFFFFFFFF#32 1 .write = true ∧
    State.reset.aborted 0xFFFFFFFF#32 1 .write = false ∧
    State.reset.kindAt 0xFFFFFFFF#32 1 = some .ram ∧ State.reset.kindAt 0xFFFFFFFE#32 4 = none ∧
    (mapped State.reset [⟨0, 4, .rom⟩]).kindAt 0#32 4 = some .rom ∧
    (mapped State.reset [⟨0, 4, .rom⟩]).kindAt 4#32 1 = none ∧
    (mapped State.reset [⟨0, 4, .device⟩]).kindAt 3#32 1 = some .device := by decide +kernel

/-- The MMU on, this domain access control, and this first-level descriptor for the first megabyte. -/
def mmu (dac l1 : Word) : State :=
  withWord (State.reset.withCp15
    { State.reset.cp15 with dac := dac, control := { State.reset.cp15.control with m := true } }) 0 l1

/-- The same with `l2` as the first descriptor of the page table at 0x400. -/
def paged (dac l1 l2 : Word) : State := withWord (mmu dac l1) 0x400 l2

/-- A cached small page that maps the page at 0 to the one at 0x00200000. -/
def cached : TlbEntry := { size := .small, va := 0x123#32, l1 := 0x00000401#32, l2 := 0x00200FF2#32 }

/-- The cached descriptor is used; at both ends of the page it is the one found, after it not. -/
theorem witness_AddressTranslation_cached :
    ((mmu 3#32 0x00100C02#32).withTlb [cached]).cp15.control.m = true ∧
    [0#32, 0xFFF#32, 0x1000#32].map (fun va =>
      ((mmu 3#32 0x00100C02#32).withTlb [cached]).tlb.find? (fun x => x.covers va)) = [some cached, some cached, none] := by
  decide +kernel

/-- First-level descriptors by kind: invalid, a page table, a section, reserved; and an aborted read of one. -/
theorem witness_AddressTranslation_first :
    (∀ x ∈ [(0, 0#32), (1, 0x401#32), (2, 0x00100C02#32), (3, 3#32)], (mmu 1#32 x.2).cp15.control.m = true ∧
      (∀ e ∈ (mmu 1#32 x.2).tlb, e.covers 0xFFFFF#32 = false) ∧
      (mmu 1#32 x.2).cp15.ttb ++ (0xFFFFF#32).extractLsb' 20 12 ++ 0#2 = 0#32 ∧ TableHolds 0#32 x.2 (mmu 1#32 x.2) ∧
      x.2.extractLsb' 0 2 = BitVec.ofNat 2 x.1) ∧
    (aborting (mmu 1#32 0#32) ⟨0#32, 4, .read⟩).aborted 0#32 4 .read = true := by
  unfold TableHolds; decide +kernel

/-- Second-level descriptors by kind: invalid, a large page, a small page, reserved; an aborted read of one; the AP field
of the last sub-page of a large page and of the second of a small one. -/
theorem witness_AddressTranslation_second :
    (∀ x ∈ [(0, 0#32), (1, 0x00100FF1#32), (2, 0x00100FF2#32), (3, 3#32)],
      TableHolds 0x400#32 x.2 (paged 1#32 0x401#32 x.2) ∧ x.2.extractLsb' 0 2 = BitVec.ofNat 2 x.1) ∧
    (0x401#32).extractLsb' 10 22 ++ (0xFFF#32).extractLsb' 12 8 ++ 0#2 = 0x400#32 ∧
    (aborting (paged 1#32 0x401#32 0#32) ⟨0x400#32, 4, .read⟩).aborted 0x400#32 4 .read = true ∧
    (∀ j, j < 2 → (3#2).getLsbD j = (0x00100E41#32).getLsbD (4 + 2 * ((0xFFFF#32).extractLsb' 14 2).toNat + j)) ∧
    (∀ j, j < 2 → (1#2).getLsbD j = (0x00100E42#32).getLsbD (4 + 2 * ((0x400#32).extractLsb' 10 2).toNat + j)) := by
  unfold TableHolds; decide +kernel

/-- The cases of the check of an access: the four domain values, the permissions, what the access meets. -/
theorem witness_AddressTranslation_checks :
    [0#32, 1#32, 2#32, 3#32].map (fun d => (domainAccess (mmu d 0#32).cp15.dac 0#4).toNat) = [0, 1, 2, 3] ∧
    permits 3#2 (mmu 1#32 0#32).cp15.control false true = some true ∧
    permits 1#2 (mmu 1#32 0#32).cp15.control false true = some false ∧
    permits 0#2 { (mmu 1#32 0#32).cp15.control with s := true, r := true } true false = none ∧
    (mmu 3#32 0x00100C02#32).aborted 0x00100044#32 4 .write = false ∧
    (aborting (mmu 3#32 0x00100C02#32) ⟨0x00100044#32, 4, .write⟩).aborted 0x00100044#32 4 .write = true ∧
    (mmu 3#32 0x00100C02#32).kindAt 0x00100044#32 4 = some .ram ∧
    [RegionKind.rom, .device].map (fun k => (mapped (mmu 3#32 0x00100C02#32) [⟨0, 2 ^ 32, k⟩]).kindAt 0x00100044#32 4) =
      [some .rom, some .device] ∧
    (mapped (mmu 3#32 0x00100C02#32) [⟨0, 4, .ram⟩]).kindAt 0x00100044#32 4 = none := by decide +kernel

/-- R1 = 0x1000: a base for the transfers. -/
def base : State := svc [(1#4, 0x1000#32)]

/-- Pre-indexed, added, no writeback; the same with writeback; post-indexed. -/
def pre : Indexing := ⟨true, true, false⟩
def preW : Indexing := ⟨true, true, true⟩
def post : Indexing := ⟨false, false, false⟩

theorem witness_WordLoad :
    Runs .al base ∧ Runs .al (usr [(1#4, 0x1000#32)]) ∧
    singleOk .ldr (.imm 0xFFF#12) preW 1#4 0#4 = true ∧ singleOk .ldrt (.reg ⟨0#5, .lsl, 2#4⟩) post 1#4 0#4 = true ∧
    (0#4 : Reg) ≠ 15#4 ∧ singleAddr .ldr (.imm 0xFFF#12) preW 1#4 base = 0x1FFF#32 ∧ base.cp15.control.a = false ∧
    reach .read (SingleKind.ldr.priv base) 4 (wordAligned 0x1FFF#32) base = .ok (reached 0x1FFC#32) base ∧
    (aligned base).cp15.control.a = true ∧
    (singleAddr .ldrt (.reg ⟨0#5, .lsl, 2#4⟩) post 1#4 (aligned base)).extractLsb' 0 2 = 0#2 ∧
    reach .read (SingleKind.ldrt.priv (aligned base)) 4
      (wordAligned (singleAddr .ldrt (.reg ⟨0#5, .lsl, 2#4⟩) post 1#4 (aligned base))) (aligned base) =
      .ok (reached 0x1000#32) (aligned base) := by decide +kernel

theorem witness_ByteLoad :
    Runs .al base ∧ singleOk .ldrb (.imm 1#12) pre 1#4 0#4 = true ∧
    reach .read (SingleKind.ldrb.priv base) 1 (singleAddr .ldrb (.imm 1#12) pre 1#4 base) base =
      .ok (reached 0x1001#32) base ∧
    singleOk .ldrbt (.reg ⟨0#5, .lsl, 2#4⟩) post 1#4 0#4 = true ∧
    reach .read (SingleKind.ldrbt.priv base) 1 (singleAddr .ldrbt (.reg ⟨0#5, .lsl, 2#4⟩) post 1#4 base) base =
      .ok (reached 0x1000#32) base := by decide +kernel

/-- The first 64KB ROM, the rest RAM. -/
def romLow (s : State) : State := mapped s [⟨0, 0x10000, .rom⟩, ⟨0x10000, 2 ^ 32 - 0x10000, .ram⟩]

theorem witness_WordStore :
    base.mem.wf = true ∧ (romLow base).mem.wf = true ∧ Runs .al base ∧
    singleOk .str (.imm 3#12) pre 1#4 15#4 = true ∧ singleOk .str (.imm 3#12) preW 1#4 0#4 = true ∧
    singleOk .strt (.reg ⟨0#5, .lsl, 2#4⟩) post 1#4 0#4 = true ∧ base.cp15.control.a = false ∧
    reach .write (SingleKind.str.priv base) 4 (wordAligned (singleAddr .str (.imm 3#12) pre 1#4 base)) base =
      .ok (reached 0x1000#32) base ∧
    reach .write (SingleKind.strt.priv base) 4
      (wordAligned (singleAddr .strt (.reg ⟨0#5, .lsl, 2#4⟩) post 1#4 base)) base = .ok (reached 0x1000#32) base ∧
    Runs .al (romLow base) ∧
    reach .write (SingleKind.str.priv (romLow base)) 4
      (wordAligned (singleAddr .str (.imm 3#12) pre 1#4 (romLow base))) (romLow base) =
      .ok { pa := 0x1000#32, rom := true } (romLow base) := by decide +kernel

theorem witness_ByteStore :
    base.mem.wf = true ∧ Runs .al base ∧ singleOk .strb (.imm 3#12) pre 1#4 0#4 = true ∧
    reach .write (SingleKind.strb.priv base) 1 (singleAddr .strb (.imm 3#12) pre 1#4 base) base =
      .ok (reached 0x1003#32) base ∧
    singleOk .strbt (.reg ⟨0#5, .lsl, 2#4⟩) post 1#4 0#4 = true ∧
    reach .write (SingleKind.strbt.priv base) 1 (singleAddr .strbt (.reg ⟨0#5, .lsl, 2#4⟩) post 1#4 base) base =
      .ok (reached 0x1000#32) base := by decide +kernel

/-- `base` with these cells of memory. -/
def baseWith (l : Memory) : State := base.withMem l

theorem witness_LoadPc :
    base.cpsr.flags.pass .al = true ∧ singleOk .ldr (.imm 1#12) pre 1#4 15#4 = true ∧ base.cp15.control.a = false ∧
    (singleAddr .ldr (.imm 1#12) pre 1#4 base).extractLsb' 0 2 ≠ 0#2 ∧
    singleOk .ldr (.imm 0#12) preW 1#4 15#4 = true ∧
    (singleAddr .ldr (.imm 0#12) preW 1#4 base).extractLsb' 0 2 = 0#2 ∧
    reach .read base.privileged 4 0x1000#32 (baseWith [(0x1000, 0xFC#8)]) =
      .ok (reached 0x1000#32) (baseWith [(0x1000, 0xFC#8)]) ∧
    (Memory.readWord [(0x1000, 0xFC#8)] (wordCell 0x1000#32)).extractLsb' 0 2 = 0#2 ∧
    reach .read base.privileged 4 0x1000#32 (baseWith [(0x1000, 1#8)]) =
      .ok (reached 0x1000#32) (baseWith [(0x1000, 1#8)]) ∧
    (Memory.readWord [(0x1000, 1#8)] (wordCell 0x1000#32)).extractLsb' 0 2 ≠ 0#2 := by decide +kernel

/-- The states in which this access aborts, from `base`. -/
def abortsAt (a : Word) (n : Nat) (k : AccessKind) : State := aborting base ⟨a, n, k⟩

theorem witness_TransferAborts :
    base.cpsr.flags.pass .al = true ∧
    singleOk .ldr (.imm 0#12) preW 1#4 0#4 = true ∧
    (singleAddr .ldr (.imm 0#12) preW 1#4 base).extractLsb' 0 2 = 0#2 ∧
    reach .read (SingleKind.ldr.priv base) 4 0x1000#32 (abortsAt 0x1000#32 4 .read) =
      .abort none (abortsAt 0x1000#32 4 .read) ∧
    singleOk .strb (.imm 1#12) pre 1#4 0#4 = true ∧
    reach .write (SingleKind.strb.priv base) 1 0x1001#32 (abortsAt 0x1001#32 1 .write) =
      .abort none (abortsAt 0x1001#32 1 .write) ∧
    halfOk (.imm 2#8) pre 1#4 0#4 = true ∧ (halfAddr (.imm 2#8) pre 1#4 base).getLsbD 0 = false ∧
    reach .read base.privileged 2 0x1002#32 (abortsAt 0x1002#32 2 .read) = .abort none (abortsAt 0x1002#32 2 .read) := by
  decide +kernel

/-- STR to 0x1003 with alignment checking off is made, and aborts, at 0x1000. -/
theorem witness_TransferAborts_misaligned :
    (abortsAt 0x1000#32 4 .write).cpsr.flags.pass .al = true ∧ (abortsAt 0x1000#32 4 .write).cp15.control.a = false ∧
    singleAddr .str (.imm 3#12) pre 1#4 (abortsAt 0x1000#32 4 .write) = 0x1003#32 ∧
    reach .write (SingleKind.str.priv base) 4 (wordAligned 0x1003#32) (abortsAt 0x1000#32 4 .write) =
      .abort none (abortsAt 0x1000#32 4 .write) := by decide +kernel

/-- A swap's read aborts; its write aborts after a read that was done. -/
theorem witness_TransferAborts_swap :
    swapOk 1#4 0#4 2#4 = true ∧ (base.readReg 1#4).extractLsb' 0 2 = 0#2 ∧
    (∀ n ∈ [4, 1],
      reach .lockedRead true n 0x1000#32 (abortsAt 0x1000#32 n .read) = .abort none (abortsAt 0x1000#32 n .read) ∧
      reach .lockedRead true n 0x1000#32 (abortsAt 0x1000#32 n .write) =
        .ok (reached 0x1000#32) (abortsAt 0x1000#32 n .write) ∧
      reach .write true n 0x1000#32 (abortsAt 0x1000#32 n .write) = .abort none (abortsAt 0x1000#32 n .write)) := by
  decide +kernel

/-- A domain fault of the MMU aborts with a recorded status. -/
theorem witness_TransferAborts_mmu :
    (match reach .read true 4 0x44#32 (mmu 0#32 0x00100C02#32) with
      | .abort f _ => f
      | _ => none) = some { status := 0b1001#4, domain := 0#4 } := by decide +kernel

/-- R1 = 0x1001 and alignment checking on. -/
def odd : State := aligned (svc [(1#4, 0x1001#32)])

theorem witness_MisalignedAccesses :
    odd.cpsr.flags.pass .al = true ∧ odd.cp15.control.a = true ∧
    SingleKind.str.byte = false ∧ singleOk .str (.imm 0#12) preW 1#4 0#4 = true ∧
    (singleAddr .str (.imm 0#12) preW 1#4 odd).extractLsb' 0 2 ≠ 0#2 ∧
    HalfKind.ldrsh ≠ .ldrsb ∧ halfOk (.imm 0#8) pre 1#4 0#4 = true ∧ (halfAddr (.imm 0#8) pre 1#4 odd).getLsbD 0 = true ∧
    swapOk 1#4 0#4 2#4 = true ∧ (odd.readReg 1#4).extractLsb' 0 2 ≠ 0#2 ∧
    loadBlockOk ⟨true, false, false, true⟩ 1#4 0x8001#16 = true ∧
    storeBlockOk ⟨true, false, false, true⟩ 1#4 0x8002#16 = true ∧
    blockModeOk ⟨true, false, false, true⟩ odd.cpsr.mode = true ∧
    blockFits (blockStart ⟨true, false, false, true⟩ (odd.readReg 1#4) 0x8001#16) 0x8001#16 = true ∧
    blockFits (blockStart ⟨true, false, false, true⟩ (odd.readReg 1#4) 0x8002#16) 0x8002#16 = true := by decide +kernel

theorem witness_MisalignedAccesses_odd :
    HalfKind.strh ≠ .ldrsb ∧ base.cpsr.flags.pass .al = true ∧ halfOk (.imm 1#8) pre 1#4 0#4 = true ∧
    base.cp15.control.a = false ∧ (halfAddr (.imm 1#8) pre 1#4 base).getLsbD 0 = true := by decide +kernel

theorem witness_HalfwordLoad :
    Runs .al base ∧ halfOk (.imm 0xFE#8) preW 1#4 0#4 = true ∧ halfOk (.reg 2#4) post 1#4 0#4 = true ∧
    (halfAddr (.imm 0xFE#8) preW 1#4 base).getLsbD 0 = false ∧
    reach .read base.privileged 2 (halfAddr (.imm 0xFE#8) preW 1#4 base) base = .ok (reached 0x10FE#32) base ∧
    reach .read base.privileged 1 (halfAddr (.reg 2#4) post 1#4 base) base = .ok (reached 0x1000#32) base := by
  decide +kernel

theorem witness_HalfwordStore :
    base.mem.wf = true ∧ Runs .al base ∧ halfOk (.imm 2#8) preW 1#4 0#4 = true ∧ (halfAddr (.imm 2#8) preW 1#4 base).getLsbD 0 = false ∧
    reach .write base.privileged 2 (halfAddr (.imm 2#8) preW 1#4 base) base = .ok (reached 0x1002#32) base := by decide +kernel

theorem witness_SwapResult :
    base.mem.wf = true ∧ Runs .al base ∧ swapOk 1#4 0#4 0#4 = true ∧ base.cp15.control.a = false ∧
    reach .lockedRead base.privileged 4 (wordAligned (base.readReg 1#4)) base = .ok (reached 0x1000#32) base ∧
    reach .write base.privileged 4 (wordAligned (base.readReg 1#4)) base = .ok (reached 0x1000#32) base ∧
    reach .lockedRead base.privileged 1 (base.readReg 1#4) base = .ok (reached 0x1000#32) base ∧
    reach .write base.privileged 1 (base.readReg 1#4) base = .ok (reached 0x1000#32) base := by decide +kernel

theorem witness_LoadMultiple :
    Runs .al base ∧
    (∀ bm ∈ [(⟨false, true, false, true⟩ : BlockMode), ⟨true, false, true, false⟩],
      loadBlockOk bm 1#4 0x6000#16 = true ∧ blockModeOk bm base.cpsr.mode = true ∧
      blockFits (blockStart bm (base.readReg 1#4) 0x6000#16) 0x6000#16 = true ∧
      readBlock (regsOf 0x6000#16) (blockStart bm (base.readReg 1#4) 0x6000#16) base =
        .done [⟨13#4, 0#32⟩, ⟨14#4, 0#32⟩] base) ∧
    inList 0x6000#16 15#4 = false ∧ base.cp15.control.a = false := by decide +kernel

/-- What the completed reads of a block gave. -/
def loadedBy (e : BlockEnd (List Loaded)) : Option (List Loaded) :=
  match e with
  | .done vs _ => some vs
  | _ => none

theorem witness_LoadMultiplePc :
    (svc [(1#4, 0x1001#32)]).cpsr.flags.pass .al = true ∧
    loadBlockOk ⟨false, true, true, true⟩ 1#4 0x8001#16 = true ∧
    loadBlockOk ⟨false, true, false, false⟩ 1#4 0x8001#16 = true ∧
    blockModeOk ⟨false, true, true, true⟩ base.cpsr.mode = true ∧ inList 0x8001#16 15#4 = true ∧
    blockFits (blockStart ⟨false, true, true, true⟩ (base.readReg 1#4) 0x8001#16) 0x8001#16 = true ∧
    ((svc [(1#4, 0x1001#32)]).readReg 1#4).extractLsb' 0 2 ≠ 0#2 ∧
    (svc [(1#4, 0x1001#32)]).cp15.control.a = false ∧ (base.readReg 1#4).extractLsb' 0 2 = 0#2 ∧
    loadedBy (readBlock (regsOf 0x8001#16) (blockStart ⟨false, true, true, true⟩ (base.readReg 1#4) 0x8001#16)
      (base.withMem [(0x1004, 0xFC#8), (0x1007, 0xFF#8)])) = some ([⟨0#4, 0#32⟩] ++ [⟨15#4, 0xFF0000FC#32⟩]) ∧
    loadedBy (readBlock (regsOf 0x8001#16) (blockStart ⟨false, true, true, true⟩ (base.readReg 1#4) 0x8001#16)
      (base.withMem [(0x1004, 1#8)])) = some ([⟨0#4, 0#32⟩] ++ [⟨15#4, 1#32⟩]) ∧
    (0xFF0000FC#32 : Word).extractLsb' 0 2 = 0#2 ∧ (1#32 : Word).extractLsb' 0 2 ≠ 0#2 ∧
    ({ Spsr.atReset with m := 0b10000#5 } : Spsr).restored =
      some { flags := Flags.none, i := false, f := false, mode := .usr } ∧
    base.spsrNow = some Spsr.atReset ∧ Mode.ofBits Spsr.atReset.m = none := by decide +kernel

theorem witness_LoadMultipleAddresses :
    State.reset.cp15.control.m = false ∧
    (∀ k, k < (regsOf 0x8001#16).length →
      State.reset.aborted (wordAligned 0xFFFFFFFB#32 + BitVec.ofNat 32 (4 * k)) 4 .read = false ∧
      State.reset.kindAt (wordAligned 0xFFFFFFFB#32 + BitVec.ofNat 32 (4 * k)) 4 = some .ram) := by decide +kernel

/-- The second word of a block aborts. -/
def aborts2 (kind : AccessKind) : State := aborting base ⟨0x1004#32, 4, kind⟩

theorem witness_LoadMultipleAbort :
    (aborts2 .read).cpsr.flags.pass .al = true ∧ loadBlockOk ⟨false, true, false, false⟩ 1#4 3#16 = true ∧
    blockModeOk ⟨false, true, false, false⟩ (aborts2 .read).cpsr.mode = true ∧
    blockFits (blockStart ⟨false, true, false, false⟩ ((aborts2 .read).readReg 1#4) 3#16) 3#16 = true ∧
    ((aborts2 .read).readReg 1#4).extractLsb' 0 2 = 0#2 ∧
    readBlock (regsOf 3#16) (blockStart ⟨false, true, false, false⟩ ((aborts2 .read).readReg 1#4) 3#16)
      (aborts2 .read) = .aborted [⟨0#4, 0#32⟩] 0x1004#32 none (aborts2 .read) := by decide +kernel

/-- The same from the base 0x1003, alignment checking off. -/
def aborts2Odd (kind : AccessKind) : State := (aborts2 kind).setReg 1#4 0x1003#32

theorem witness_LoadMultipleAbort_misaligned :
    (aborts2Odd .read).cpsr.flags.pass .al = true ∧ (aborts2Odd .read).readReg 1#4 = 0x1003#32 ∧
    (aborts2Odd .read).cp15.control.a = false ∧ inList 3#16 15#4 = false ∧
    blockFits (blockStart ⟨false, true, false, false⟩ 0x1003#32 3#16) 3#16 = true ∧
    readBlock (regsOf 3#16) (blockStart ⟨false, true, false, false⟩ 0x1003#32 3#16) (aborts2Odd .read) =
      .aborted [⟨0#4, 0#32⟩] 0x1004#32 none (aborts2Odd .read) := by decide +kernel

theorem witness_StoreMultiple :
    Runs .al base ∧
    (∀ bm ∈ [(⟨false, true, false, true⟩ : BlockMode), ⟨true, false, true, false⟩],
      storeBlockOk bm 1#4 0x4006#16 = true ∧ blockModeOk bm base.cpsr.mode = true ∧
      blockFits (blockStart bm (base.readReg 1#4) 0x4006#16) 0x4006#16 = true) ∧
    base.cp15.control.a = false ∧
    (match writeBlock [0x1000#32, 2#32, 3#32] (blockStart ⟨false, true, false, true⟩ (base.readReg 1#4) 0x4006#16) base with
      | .done _ u => u.mem
      | _ => []) = [(0x1001, 0x10#8), (0x1004, 2#8), (0x1008, 3#8)] := by decide +kernel

theorem witness_StoreMultipleAddresses :
    State.reset.mem.wf = true ∧ State.reset.cp15.control.m = false ∧ (wordAligned 0xFFFFFFFB#32).toNat + 4 * [1#32, 2#32].length ≤ 2 ^ 32 ∧
    (∀ k, k < [1#32, 2#32].length →
      State.reset.aborted (wordAligned 0xFFFFFFFB#32 + BitVec.ofNat 32 (4 * k)) 4 .write = false ∧
      State.reset.kindAt (wordAligned 0xFFFFFFFB#32 + BitVec.ofNat 32 (4 * k)) 4 = some .ram) := by decide +kernel

/-- R0 is stored, then the write of R1 aborts, with and without a register after it. -/
theorem witness_StoreMultipleAbort :
    (aborts2 .write).cpsr.flags.pass .al = true ∧ (aborts2 .write).cp15.control.m = false ∧
    storeBlockOk ⟨false, true, false, false⟩ 1#4 3#16 = true ∧
    storeBlockOk ⟨false, true, false, false⟩ 1#4 7#16 = true ∧
    blockModeOk ⟨false, true, false, false⟩ (aborts2 .write).cpsr.mode = true ∧
    blockFits (blockStart ⟨false, true, false, false⟩ 0x1000#32 3#16) 3#16 = true ∧
    blockFits (blockStart ⟨false, true, false, false⟩ 0x1000#32 7#16) 7#16 = true ∧
    (aborts2 .write).readReg 1#4 = 0x1000#32 ∧ (0x1000#32 : Word).extractLsb' 0 2 = 0#2 := by decide +kernel

theorem witness_StoreMultipleAbort_values :
    storedValues ⟨false, true, false, false⟩ 3#16 (aborts2 .write) = [0#32] ++ 0x1000#32 :: [] ∧
    storedValues ⟨false, true, false, false⟩ 7#16 (aborts2 .write) = [0#32] ++ 0x1000#32 :: [0#32] := by
  decide +kernel

theorem witness_StoreMultipleAbort_writes :
    (match writeBlock [0#32] 0x1000#32 (aborts2 .write) with
      | .done _ u =>
        (match reach .write true 4 0x1004#32 u with
          | .abort f _ => f == none
          | _ => false)
      | _ => false) = true := by decide +kernel

/-- The same from the base 0x1003, alignment checking off, with R15 after it or not. -/
theorem witness_StoreMultipleAbort_misaligned :
    (aborts2Odd .write).cp15.control.a = false ∧ storeBlockOk ⟨false, true, false, false⟩ 1#4 0x8003#16 = true ∧
    blockFits (blockStart ⟨false, true, false, false⟩ 0x1003#32 0x8003#16) 0x8003#16 = true ∧
    storedValues ⟨false, true, false, false⟩ 3#16 (aborts2Odd .write) = [0#32] ++ 0x1003#32 :: [] ∧
    wordAligned 0x1003#32 + BitVec.ofNat 32 (4 * 1) = 0x1004#32 ∧
    (match writeBlock [0#32] 0x1003#32 (aborts2Odd .write) with
      | .done _ u =>
        (match reach .write true 4 0x1004#32 u with
          | .abort f _ => f == none
          | _ => false)
      | _ => false) = true := by decide +kernel

theorem witness_Branches :
    (State.reset.withPc 0xFFFFFFFC#32).cpsr.flags.pass .al = true ∧ wordAligned 0xFFFFFFFC#32 = 0xFFFFFFFC#32 ∧
    (0xFFFFFFFC : Int) < (0xFFFFFFFC#32).toNat + 8 + 4 * (0#24).toInt ∧
    ((0xFFFFFFFC#32).toNat + 8 + 4 * (0xFFFFFE#24).toInt : Int) ≤ 0xFFFFFFFC ∧
    ((0#32).toNat + 8 + 4 * (0xFFFFFD#24).toInt : Int) < 0 ∧
    (0 : Int) ≤ (0#32).toNat + 8 + 4 * (0xFFFFFE#24).toInt := by decide +kernel

theorem witness_SoftwareInterrupts : (usr []).cpsr.flags.pass .al = true := by decide +kernel

/-- The word at 0x8000 awaits a barrier; R0 and R1 as given. -/
def awaiting (first last : Word) : State := (svc [(0#4, first), (1#4, last)]).withStale [⟨0x8000#32, []⟩]

/-- IMBRange at the ends of its range: the last byte of the word is the first of the range, the first is the last; one byte
further on either side the word still awaits a barrier (48_swap_swi_imb.md R382). -/
theorem witness_SoftwareInterrupts_range :
    [(0x8003#32, 0x8003#32), (0x7000#32, 0x8000#32), (0x8004#32, 0x9000#32), (0x7000#32, 0x7FFF#32)].map (fun r =>
      (nextOf (exec (.imbRange .al) (awaiting r.1 r.2))).map fun t => staleAt t 0x8000#32 0x8000#32) =
    [some false, some false, some true, some true] := by decide +kernel

theorem witness_UnbarrieredWordStops :
    (reached 0x1000#32).rom = false ∧
    reach .write true 4 (wordAligned 0x1003#32) base = .ok (reached 0x1000#32) base ∧
    reach .write true 2 0x1002#32 base = .ok (reached 0x1002#32) base ∧ (0x1002#32).getLsbD 0 = false ∧
    reach .write true 1 0x1003#32 base = .ok (reached 0x1003#32) base ∧
    (∀ s ∈ [awaiting 0#32 0#32], s.inputs.reset = false ∧ mappingOpen s s.pc = false ∧
      reach .fetch s.privileged 4 s.pc s = .ok (reached 0x8000#32) s ∧ staleAt s s.pc 0x8000#32 = true) := by
  decide +kernel

/-- The MMU was on before, mapping the first megabyte to 0x00100000; barriers have covered all but the word at 0x8000. -/
def before : OldMapping :=
  { m := true, ttb := 0#18, tlb := [⟨.sectionMap, 0#32, 0x00100C02#32, 0#32⟩], mem := [],
    covered := [⟨0#32, 0x7FFF#32⟩, ⟨0x8004#32, 0xFFFFFFFF#32⟩] }

/-- `base`, every domain's access a manager's, with that mapping on record. -/
def changed : State := (base.withCp15 { base.cp15 with dac := 0xFFFFFFFF#32 }).withOldMaps [before]

theorem witness_UnbarrieredWordStops_mapping :
    changed.inputs.reset = false ∧ before ∈ changed.oldMaps ∧
    (∀ x ∈ before.covered, ¬ (x.first.toNat ≤ changed.pc.toNat + 3 ∧ changed.pc.toNat ≤ x.last.toNat)) ∧
    fetchTarget (changed.under before) changed.pc = some 0x00108000#32 ∧
    fetchTarget changed changed.pc = some 0x8000#32 := by decide +kernel

/-- Supervisor mode at 0x8000, the MMU on, the first megabyte mapped to itself; R0 a descriptor, R1 as given. -/
def tables (a : Word) : State :=
  withWord ((svc [(0#4, 0x00000C02#32), (1#4, a)]).withCp15 (mmu 3#32 0#32).cp15) 0 0x00000C02#32

/-- 48_swap_swi_imb.md R383: after a store to the descriptor of the second megabyte a fetch from there awaits an IMB, one
from the first megabyte does not; a store elsewhere puts nothing on record. -/
theorem test_table_store :
    (nextOf (exec (.strImm .al pre 1#4 0#4 0#12) (tables 4#32))).map (fun t =>
      (t.oldMaps.length, refusalIn (step (t.withPc 0x00100000#32)), mappingOpen t t.pc)) =
      some (1, some .mappingChanged, false) ∧
    (nextOf (exec (.strImm .al pre 1#4 0#4 0#12) (tables 0x4000#32))).map (·.oldMaps) = some [] := by decide +kernel

/-- The words of the first-level table at 0 and of the page table at 0x8000 that it leads to (20_memory.md R102, R103). -/
theorem test_table_words :
    [0x3FFC#32, 0x4000#32, 0x7FFC#32, 0x8000#32, 0x83FF#32, 0x8400#32].map (tableWord (mmu 3#32 0x8001#32)) =
    [true, false, false, true, true, false] := by decide +kernel

theorem witness_UndefinedTraps :
    (∀ i ∈ [Instr.undefined .al 0#20 0#4, .ldc .al true true true true 0#4 0#4 15#4 0#8,
      .stc .al true true true true 0#4 0#4 15#4 0#8, .cdp .al 0#4 0#4 0#4 15#4 0#3 0#4,
      .mrcOther .al 0#3 0#4 0#4 14#4 0#3 0#4, .mcrOther .al 0#3 0#4 0#4 0#4 0#3 0#4],
      trapsAlways i = true ∧ State.reset.cpsr.flags.pass i.cond = true ∧ (usr []).cpsr.flags.pass i.cond = true) := by
  decide +kernel

theorem witness_UserCp15Traps : (usr []).cpsr.flags.pass .al = true ∧ (usr []).cpsr.mode = .usr := by decide +kernel

theorem witness_MrcReads :
    Runs .al State.reset ∧ State.reset.cpsr.mode ≠ .usr ∧ (14#4 : Reg) ≠ 15#4 ∧
    (∀ n ∈ [0#4, 1#4, 2#4, 3#4, 5#4, 6#4], (n : BitVec 4).toNat ∈ [0, 1, 2, 3, 5, 6]) ∧
    (∀ n ∈ [4#4, 7#4, 8#4, 9#4, 10#4, 15#4], (n : BitVec 4).toNat ∉ [0, 1, 2, 3, 5, 6]) := by decide +kernel

theorem witness_McrWrites :
    Runs .al State.reset ∧ State.reset.cpsr.mode ≠ .usr ∧
    (∀ n ∈ [1#4, 2#4, 3#4, 5#4, 6#4], (n : BitVec 4).toNat ∈ [1, 2, 3, 5, 6]) ∧
    { crm := 7#4, op2 := 0#3 } ∈ State.reset.plat.c7Ops ∧ { crm := 7#4, op2 := 1#3 } ∉ State.reset.plat.c7Ops ∧
    (∀ x ∈ State.reset.plat.c8Ops, ¬ (x.crm = 7#4 ∧ x.op2 = 2#3)) ∧
    State.reset.plat.c8Ops.find? (fun y => y.crm == 7#4 && y.op2 == 0#3) = some ⟨7#4, 0#3, .whole⟩ ∧
    State.reset.plat.c8Ops.find? (fun y => y.crm == 7#4 && y.op2 == 1#3) = some ⟨7#4, 1#3, .entry⟩ ∧
    (∀ n ∈ [0#4, 4#4, 9#4, 15#4], (n : BitVec 4).toNat ∉ [1, 2, 3, 5, 6, 7, 8]) := by decide +kernel

/-- These lines asserted in the present step. -/
def lines (s : State) (fiq irq : Bool) : State :=
  s.withEnv [{ Inputs.quiet with fiqLine := fiq, irqLine := irq }]

theorem witness_InterruptsAtTheEnd :
    (∀ s ∈ [lines (usr []) true true, lines (usr []) false true, lines State.reset true true, lines (usr []) false false],
      s.inputs.reset = false ∧ (nextOf (runInstruction s)).isSome = true) ∧
    (nextOf (runInstruction (lines (usr []) true true))).map (·.cpsr.f) = some false ∧
    (nextOf (runInstruction (lines (usr []) false true))).map (·.cpsr.i) = some false ∧
    (nextOf (runInstruction (lines State.reset true true))).map (fun t => (t.cpsr.f, t.cpsr.i)) = some (true, true) ∧
    (lines (usr []) true true).inputs.fiqLine = true ∧ (lines (usr []) false true).inputs.irqLine = true := by decide +kernel

theorem witness_PrefetchAborts :
    (aborting State.reset ⟨0#32, 4, .fetch⟩).inputs.reset = false ∧
    (aborting State.reset ⟨0#32, 4, .fetch⟩).inputs.fiqLine = false ∧
    mappingOpen (aborting State.reset ⟨0#32, 4, .fetch⟩) 0#32 = false ∧
    reach .fetch true 4 0#32 (aborting State.reset ⟨0#32, 4, .fetch⟩) =
      .abort none (aborting State.reset ⟨0#32, 4, .fetch⟩) := by decide +kernel

/-- STR R1,[R1] is in progress when the reset comes. -/
def resetting : State := (base.withFetchWord 32 0xE5811000).withEnv [{ Inputs.quiet with reset := true }]

theorem witness_ResetValues :
    resetting.inputs.reset = true ∧ resetting.mem.wf = true ∧ wordAligned resetting.pc = resetting.pc ∧
    (∀ w ∈ resetting.stale, w.wf = true) ∧ (∀ e ∈ resetting.tlb, e.wf = true) ∧
    (∀ o ∈ resetting.oldMaps, o.mem.wf = true ∧ ∀ e ∈ o.tlb, e.wf = true) ∧
    (nextOf (runInstruction resetting)).map (fun t => t.mem.readWord 0x1000) = some 0x1000#32 ∧
    changedCells [] [(0x1001, 0x10#8)] = [0x1001] := by decide +kernel

theorem witness_StepRunsDecoded :
    (running 0xE3A00005#32).inputs.reset = false ∧ mappingOpen (running 0xE3A00005#32) 0#32 = false ∧
    reach .fetch (running 0xE3A00005#32).privileged 4 (running 0xE3A00005#32).pc (running 0xE3A00005#32) =
      .ok (reached 0#32) (running 0xE3A00005#32) ∧
    staleAt (running 0xE3A00005#32) (running 0xE3A00005#32).pc 0#32 = false ∧
    decode ((running 0xE3A00005#32).mem.readWord (wordCell 0#32)) = .ok (.movImm .al false 0#4 ⟨0#4, 5#8⟩) ∧
    hazardous (.movImm .al false 0#4 ⟨0#4, 5#8⟩) (running 0xE3A00005#32) = false ∧
    (running 0xE3A00005#32).cp15.control.m = false := by decide +kernel

/-- MOV R0,R13 in Supervisor mode after a User-bank LDM. -/
def hazard : State := (running 0xE1A0000D#32).withBankHazard true

theorem witness_BankedAfterUserLoad :
    hazard.inputs.reset = false ∧ mappingOpen hazard hazard.pc = false ∧ reach .fetch hazard.privileged 4 hazard.pc hazard = .ok (reached 0#32) hazard ∧
    staleAt hazard hazard.pc 0#32 = false ∧
    decode (hazard.mem.readWord (wordCell 0#32)) = .ok (.movReg .al false 0#4 ⟨0#5, .lsl, 13#4⟩) ∧
    hazard.bankHazard = true ∧ hazard.cpsr.flags.pass .al = true ∧
    (∃ n ∈ namedRegs (.movReg .al false 0#4 ⟨0#5, .lsl, 13#4⟩), hazard.cpsr.mode.bank n ≠ Mode.usr.bank n) := by decide +kernel

theorem witness_InvKept :
    (running 0xE3A00005#32).mem.wf = true ∧ wordAligned (running 0xE3A00005#32).pc = (running 0xE3A00005#32).pc ∧
    (∀ w ∈ (running 0xE3A00005#32).stale, w.wf = true) ∧ (∀ e ∈ (running 0xE3A00005#32).tlb, e.wf = true) ∧
    (∀ o ∈ (running 0xE3A00005#32).oldMaps, o.mem.wf = true ∧ ∀ e ∈ o.tlb, e.wf = true) ∧
    (nextOf (step (running 0xE3A00005#32))).isSome = true := by decide +kernel

theorem witness_UserModeConfined :
    (usr []).cpsr.mode = .usr ∧ (nextOf (step (usr []))).isSome = true ∧
    ((nextOf (step ((usr []).withFetchWord 32 0xEF000000))).map (·.cpsr.mode)) = some .svc := by decide +kernel


theorem witness_RegisterBanks :
    (7#4 : Reg).toNat < 8 ∧ 8 ≤ (8#4 : Reg).toNat ∧ (8#4 : Reg).toNat ≤ 12 ∧ (12#4 : Reg).toNat ≤ 12 ∧
    (13#4 : Reg) ≠ 14#4 ∧ Mode.usr.bank 15#4 = Mode.fiq.bank 15#4 ∧
    wordAligned 0xFFFFFFFC#32 = 0xFFFFFFFC#32 := by decide +kernel

theorem witness_TransferAddresses :
    ((List.range 16).filter fun k => (0x8001#16).getLsbD k).length = 2 ∧
    ((List.range 16).filter fun k => (0xFFFF#16).getLsbD k).length = 16 := by decide +kernel

theorem witness_TransferAddresses_offsets (s : State) :
    (∃ x : BitVec 12, SingleOffset.imm 0xFFF#12 = .imm x ∧ 0xFFF#32 = BitVec.ofNat 32 x.toNat) ∧
    (∃ x, SingleOffset.reg ⟨0#5, .ror, 2#4⟩ = .reg x ∧
      (shiftedOperand ⟨0#5, .ror, 2#4⟩ s).op2 = (shiftedOperand x s).op2) ∧
    (∃ x : BitVec 8, HalfOffset.imm 0xFF#8 = .imm x ∧ 0xFF#32 = BitVec.ofNat 32 x.toNat) ∧
    (∃ rm, HalfOffset.reg 2#4 = .reg rm ∧ s.readReg 2#4 = s.readReg rm) :=
  ⟨⟨_, rfl, rfl⟩, ⟨_, rfl, rfl⟩, ⟨_, rfl, rfl⟩, ⟨_, rfl, rfl⟩⟩

/-- The last instruction of the address space; R1 = 0x1000. -/
def last : State := base.withPc 0xFFFFFFFC#32

theorem witness_NoSuccessor_transfers :
    last.cpsr.flags.pass .al = true ∧ last.pc = 0xFFFFFFFC#32 ∧ last.cp15.control.a = false ∧
    singleOk .ldr (.imm 0#12) preW 1#4 0#4 = true ∧ singleAddr .ldr (.imm 0#12) preW 1#4 last = 0x1000#32 ∧
    reach .read (SingleKind.ldr.priv last) 4 (wordAligned 0x1000#32) last = .ok (reached 0x1000#32) last ∧
    singleOk .strb (.imm 3#12) pre 1#4 0#4 = true ∧ singleAddr .strb (.imm 3#12) pre 1#4 last = 0x1003#32 ∧
    reach .write (SingleKind.strb.priv last) 1 0x1003#32 last = .ok (reached 0x1003#32) last ∧
    halfOk (.imm 2#8) pre 1#4 0#4 = true ∧ halfAddr (.imm 2#8) pre 1#4 last = 0x1002#32 ∧
    (∀ k ∈ [AccessKind.read, .write], reach k last.privileged 2 0x1002#32 last = .ok (reached 0x1002#32) last) ∧
    reach .read last.privileged 1 0x1002#32 last = .ok (reached 0x1002#32) last ∧
    swapOk 1#4 0#4 2#4 = true ∧ last.readReg 1#4 = 0x1000#32 ∧
    (∀ n ∈ [4, 1], reach .lockedRead last.privileged n 0x1000#32 last = .ok (reached 0x1000#32) last ∧
      reach .write last.privileged n 0x1000#32 last = .ok (reached 0x1000#32) last) := by decide +kernel

theorem witness_NoSuccessor_blocks :
    blockModeOk ⟨false, true, true, false⟩ last.cpsr.mode = true ∧
    blockStart ⟨false, true, true, false⟩ (last.readReg 1#4) 5#16 = 0x1000#32 ∧ blockFits 0x1000#32 5#16 = true ∧
    loadBlockOk ⟨false, true, true, false⟩ 1#4 5#16 = true ∧ inList 5#16 15#4 = false ∧
    storeBlockOk ⟨false, true, true, false⟩ 1#4 5#16 = true ∧
    readBlock (regsOf 5#16) 0x1000#32 last = .done [⟨0#4, 0#32⟩, ⟨2#4, 0#32⟩] last ∧
    (match writeBlock (storedValues ⟨false, true, true, false⟩ 5#16 last) 0x1000#32 last with
      | .done _ _ => true
      | _ => false) = true := by decide +kernel

theorem witness_NoSuccessor_others :
    (0#4 : Reg) ≠ 15#4 ∧ (0#4 : Reg) ≠ 1#4 ∧ (0#4 : Reg) ≠ 2#4 ∧ (1#4 : Reg) ≠ 2#4 ∧ last.spsrNow ≠ none ∧
    (8#4).getLsbD 0 = false ∧ Mode.ofBits ((0x1F#32 : Word).extractLsb' 0 5) = some .sys ∧ last.cpsr.mode ≠ .usr ∧
    (∀ n ∈ [1#4, 2#4, 3#4, 5#4, 6#4], (n : BitVec 4).toNat ∈ [0, 1, 2, 3, 5, 6] ∧ n.toNat ∈ [1, 2, 3, 5, 6]) ∧
    { crm := 7#4, op2 := 0#3 } ∈ last.plat.c7Ops ∧ (∃ x ∈ last.plat.c8Ops, x.crm = 7#4 ∧ x.op2 = 1#3) := by
  decide +kernel
end Sys2Proof.Tests
end

section
/-! PROOF. Word addresses, and that a translation keeps bits 1:0 of an address (10_state.md R30; 20_memory.md R102, R103). -/

namespace Sys2Proof.Machine

/-- Bits 1:0 are cleared, the others kept (10_state.md R30). -/
theorem getLsbD_wordAligned (v : Word) {i : Nat} (hi : i < 32) :
    (wordAligned v).getLsbD i = (v.getLsbD i && decide (2 ≤ i)) := by
  have hmask : ∀ j : Fin 32, (0xFFFFFFFC#32).getLsbD j = decide (2 ≤ j.val) := by decide
  rw [wordAligned, BitVec.getLsbD_and, hmask ⟨i, hi⟩]

/-- A word address is one whose bits 1:0 are zero (10_state.md R30). -/
theorem wordAligned_eq_self_iff (v : Word) : wordAligned v = v ↔ v.extractLsb' 0 2 = 0#2 := by
  constructor
  · intro h
    refine BitVec.eq_of_getLsbD_eq fun i hi => ?_
    rw [← h, BitVec.getLsbD_extractLsb', getLsbD_wordAligned _ (by omega)]
    simp; omega
  · intro h
    refine BitVec.eq_of_getLsbD_eq fun i hi => ?_
    rw [getLsbD_wordAligned _ hi]
    by_cases h2 : 2 ≤ i
    · simp [h2]
    · have := congrArg (fun x => x.getLsbD i) h
      simp [show i < 2 by omega] at this
      simp [this]

/-- Bits 1:0 are the remainder by 4. -/
theorem extractLsb'_two_eq_zero_iff (v : Word) : v.extractLsb' 0 2 = 0#2 ↔ v.toNat % 4 = 0 := by
  rw [← BitVec.toNat_inj]
  simp

/-- A multiple of 4 added to a word address gives a word address (10_state.md R33). -/
theorem wordAligned_add {v d : Word} (hv : wordAligned v = v) (hd : wordAligned d = d) : wordAligned (v + d) = v + d := by
  rw [wordAligned_eq_self_iff, extractLsb'_two_eq_zero_iff] at *
  rw [BitVec.toNat_add]
  omega

/-- Bits above the second do not show in bits 1:0. -/
theorem append_extractLsb'_low {m n : Nat} (x : BitVec m) (va : Word) (hn : 2 ≤ n) :
    (x ++ va.extractLsb' 0 n).extractLsb' 0 2 = va.extractLsb' 0 2 := by
  refine BitVec.eq_of_getLsbD_eq fun i hi => ?_
  simp [BitVec.getLsbD_append, show i < n by omega]

/-- The physical address of a virtual one has its bits 1:0: the smallest page is 4KB (20_memory.md R102, R103). -/
theorem TlbEntry.physical_low (e : TlbEntry) (va : Word) :
    (e.physical va).extractLsb' 0 2 = va.extractLsb' 0 2 := by
  unfold TlbEntry.physical
  cases e.size
  · exact append_extractLsb'_low (n := 20) _ va (by decide)
  · exact append_extractLsb'_low (n := 16) _ va (by decide)
  · exact append_extractLsb'_low (n := 12) _ va (by decide)

/-- A translation keeps bits 1:0 (20_memory.md R105). -/
theorem translate_low {kind : AccessKind} {priv : Bool} {va : Word} {s t : State} {x : Translated}
    (h : translate kind priv va s = .ok x t) : x.pa.extractLsb' 0 2 = va.extractLsb' 0 2 := by
  unfold translate at h
  split at h
  · obtain ⟨e, w, -, hc⟩ := Access.bind_eq_ok.1 h
    unfold checkAccess at hc
    simp only at hc
    split at hc
    · cases hc; exact e.physical_low va
    · split at hc
      · cases hc; exact e.physical_low va
      · cases hc
      · cases hc
    · cases hc
  · cases h; rfl

/-- An access that goes through reaches a physical address with bits 1:0 of the virtual one (20_memory.md R105). -/
theorem reach_low {kind : AccessKind} {priv : Bool} {n : Nat} {va : Word} {s t : State} {r : Reached}
    (h : reach kind priv n va s = .ok r t) : r.pa.extractLsb' 0 2 = va.extractLsb' 0 2 := by
  obtain ⟨x, u, hx, hk⟩ := Access.bind_eq_ok.1 h
  have hpa : r.pa = x.pa := by
    simp only [externalAbort] at hk
    split at hk
    · split at hk <;> cases hk
    · split at hk <;> cases hk <;> rfl
  rw [hpa, translate_low hx]

end Sys2Proof.Machine
end

section
/-! PROOF. What every instruction keeps, once for any property: `Keeps` lists the changes an instruction makes to the state,
`Keeps.exec` and `Keeps.runInstruction` say that nothing else happens to it. The invariant and the confinement of User mode
are two uses. -/

namespace Sys2Proof.Machine

/-- The property `Q` holds of the state that a result leaves, where it leaves one. -/
def Gives (Q : State → Prop) (r : Result) : Prop := ∀ t, r = .next t → Q t

/-- The property `P` holds of the state that an access leaves, where it leaves one. -/
def Access.Leaves {α : Type} (P : State → Prop) : Access α → Prop
  | .ok _ t => P t
  | .abort _ t => P t
  | .stuck _ => True
  | .refused _ => True

/-- The property `P` holds of the state that the transfers of a block leave, where they leave one. -/
def BlockEnd.Leaves {α : Type} (P : State → Prop) : BlockEnd α → Prop
  | .done _ t => P t
  | .aborted _ _ _ t => P t
  | .stuck _ => True
  | .refused _ => True

/-- The property `P` holds of the state that a fetch leaves, where it leaves one. -/
def Fetched.Leaves (P : State → Prop) : Fetched → Prop
  | .instr _ t => P t
  | .never t => P t
  | .aborted t => P t
  | .stuck _ => True
  | .refused _ => True

/-- `P` is a property that each change an instruction makes to its state keeps, the changes of privileged state in a
privileged mode only; `Q` then holds of the state the instruction leaves, and of that of an exception entry. -/
structure Keeps (P Q : State → Prop) : Prop where
  lookup      : ∀ {s t}, P s → Within s (.ok () t) → P t
  flags       : ∀ {s} (fl : Flags), P s → P (s.withFlags fl)
  cpsr        : ∀ {s} (c : Cpsr), P s → s.privileged = true → P (s.withCpsr c)
  spsr        : ∀ {s} (x : Spsrs), P s → s.privileged = true → P (s.withSpsr x)
  cp15        : ∀ {s} (x : Cp15), P s → s.privileged = true → P (s.withCp15 x)
  reg         : ∀ {s m n p} (v : Word), P s → m = s.cpsr.mode ∨ m = .usr → m.bank n = some p →
                  P (s.withRegs (s.regs.set p v))
  pc          : ∀ {s} (v : Word), P s → P (s.withPc (wordAligned v))
  next        : ∀ {s}, P s → P s.next4
  stored      : ∀ {s} (r : Reached) {m : Memory}, P s → (s.mem.wf = true → m.wf = true) → P (s.stored r m)
  remapped    : ∀ {s} (changed : Bool), P s → P (s.remapped changed)
  tlb         : ∀ {s} {x : List TlbEntry}, P s → (∀ e ∈ x, e ∈ s.tlb) → P (s.withTlb x)
  hazard      : ∀ {s} (b : Bool), P s → P (s.withBankHazard b)
  barrier     : ∀ {s}, P s → P s.barrier
  barrierOver : ∀ {s} (x : AddrRange), P s → P (s.barrierOver x)
  done        : ∀ {s}, P s → Q s
  entry       : ∀ {s} (e : Exc) (ret : Word), P s → Q (takeException e ret s)
  faultEntry  : ∀ {s} (ret : Word) (f : FaultStatus) (far : Word), P s →
                  Q (takeException .dataAbort ret (s.recordFault f far))

variable {P Q : State → Prop} {s : State}

theorem Gives.next {t : State} (h : Q t) : Gives Q (.next t) := fun _ ht => by cases ht; exact h

theorem Gives.fault (r : Fault) : Gives Q (.fault r) := fun _ ht => by cases ht

theorem Gives.refused (r : Refusal) : Gives Q (.refused r) := fun _ ht => by cases ht

theorem Gives.allowing {ok : Bool} {r : Refusal} {k : Result} (h : ok = true → Gives Q k) :
    Gives Q (allowing ok r k) := fun t ht => h (allowing_next ht).1 t (allowing_next ht).2

theorem BlockEnd.Leaves.cons {e : BlockEnd (List Loaded)} (h : e.Leaves P) (x : Loaded) : (e.cons x).Leaves P := by
  cases e <;> exact h

theorem decodeFetched_leaves (w : Word) (h : P s) : (decodeFetched w s).Leaves P := by
  unfold decodeFetched
  split
  · exact h
  · split
    · exact h
    · trivial
  · trivial

/-- Only User and System mode have no SPSR, and System mode is privileged (10_state.md R40, R44). -/
theorem State.privileged_of_spsrNow {p : Spsr} (h : s.spsrNow = some p) : s.privileged = true := by
  unfold State.spsrNow at h
  unfold State.privileged
  cases hm : s.cpsr.mode
  case usr => rw [hm] at h; cases h
  all_goals rfl

/-- The bank of a block transfer is the current mode's or User's (47_block_data_transfer.md R349 to R351). -/
theorem blockBank_cases (load : Bool) (bm : BlockMode) (list : BitVec 16) (m : Mode) :
    blockBank load bm list m = m ∨ blockBank load bm list m = .usr := by
  unfold blockBank
  split
  · exact .inr rfl
  · exact .inl rfl

/-- A half-word of the address space ends in it (20_memory.md R84, R86). -/
theorem halfCell_lt (b : Bool) {pa : Word} (h : pa.getLsbD 0 = false) : halfCell b pa + 1 < 2 ^ 32 := by
  have heven : ∀ x : Word, x.getLsbD 0 = false → x.toNat + 1 < 2 ^ 32 := fun x hx => by
    have hlt := x.isLt
    have hmod : x.toNat % 2 = 0 := by simpa [BitVec.getLsbD, Nat.testBit_zero] using hx
    omega
  unfold halfCell
  split
  · exact heven _ (by simpa using h)
  · exact heven _ h

namespace Keeps

variable (hk : Keeps P Q)
include hk

/-! #### Moving on, branches, exceptions -/

theorem drawn (hs : P s) : P s.drawn := hk.lookup hs ⟨.drawn s, id⟩

theorem advance (hs : P s) : Gives Q (advance s) := fun t h => by
  obtain ⟨-, rfl⟩ := advance_next h
  exact hk.done (hk.next hs)

theorem whenPassed {c : Cond} {k : Result} (hs : P s) (h : Gives Q k) : Gives Q (whenPassed c s k) := by
  unfold Machine.whenPassed
  split
  · exact h
  · exact hk.advance hs

theorem jump (target : Word) (hs : P s) : Gives Q (jump target s) := .next (hk.done (hk.pc target hs))

theorem returnTo (target : Word) (hs : P s) : Gives Q (returnTo target s) := fun t h => by
  obtain ⟨p, c, hp, -, rfl⟩ := returnTo_next h
  exact hk.done (hk.pc target (hk.cpsr c hs (State.privileged_of_spsrNow hp)))

theorem undefinedTrap (hs : P s) : Gives Q (undefinedTrap s) := .next (hk.entry _ _ hs)

theorem softwareInterrupt (hs : P s) : Gives Q (softwareInterrupt s) := .next (hk.entry _ _ hs)

theorem dataAbort (f : Option FaultStatus) (far : Word) (hs : P s) : Gives Q (dataAbort f far s) := by
  cases f with
  | none => exact .next (hk.entry _ _ hs)
  | some x => exact .next (hk.faultEntry _ x far hs)

theorem alignmentAbort (far : Word) (hs : P s) : Gives Q (alignmentAbort far s) := hk.dataAbort _ far (hk.drawn hs)

/-! #### Registers -/

theorem setRegOf {m : Mode} (n : Reg) (v : Word) (hs : P s) (hm : m = s.cpsr.mode ∨ m = .usr) :
    P (s.setRegOf m n v) := by
  obtain ⟨p, hp, he⟩ | ⟨-, he⟩ := State.setRegOf_cases s m n v
  · rw [he]; exact hk.reg v hs hm hp
  · rw [he]; exact hk.pc v hs

theorem setReg (n : Reg) (v : Word) (hs : P s) : P (s.setReg n v) := hk.setRegOf n v hs (.inl rfl)

theorem writeBack (ix : Indexing) (rn : Reg) (a : Word) (hs : P s) : P (s.writeBack ix rn a) := by
  obtain ⟨-, he⟩ | ⟨-, he⟩ := State.writeBack_cases s ix rn a
  · rw [he]; exact hk.setReg rn a hs
  · rw [he]; exact hs

/-! #### Accesses -/

/-- An access that changes the TLB and the draws only. -/
theorem leaves {α : Type} {x : Access α} (hs : P s) (hw : Within s x) : x.Leaves P := by
  cases x with
  | ok v t => exact hk.lookup hs hw
  | abort f t => exact hk.lookup hs hw
  | stuck r => trivial
  | refused r => trivial

theorem run {α : Type} {x : Access α} {far : Word} {k : α → State → Result} (hx : x.Leaves P)
    (h : ∀ v t, P t → Gives Q (k v t)) : Gives Q (x.run far k) := by
  cases x with
  | ok v t => exact h v t hx
  | abort f t => exact hk.dataAbort f far hx
  | stuck r => exact .fault r
  | refused r => exact .refused r

/-- A store whose access goes through leaves what its write leaves. -/
theorem store_leaves {priv : Bool} {n : Nat} {a : Word} {m : Reached → State → Memory} (hs : P s)
    (hm : ∀ r t, Machine.reach .write priv n a s = .ok r t → t.mem.wf = true → (m r t).wf = true) :
    ((reach .write priv n a s).bind fun r t => .ok () (t.stored r (m r t))).Leaves P := by
  have hx := hk.leaves hs (Within.reach .write priv n a s)
  cases hr : Machine.reach .write priv n a s with
  | ok r t => rw [hr] at hx; exact hk.stored r hx (hm r t hr)
  | abort f t => rw [hr] at hx; exact hx
  | stuck r => trivial
  | refused r => trivial

theorem storeWord (priv : Bool) (a v : Word) (hs : P s) : (storeWord priv a v s).Leaves P := by
  refine hk.store_leaves hs fun r t hr hwf => Memory.wf_writeWord _ _ _ hwf ?_
  have hlow := reach_low hr
  rw [(wordAligned_eq_self_iff _).1 (wordAligned_idem a), extractLsb'_two_eq_zero_iff] at hlow
  have := r.pa.isLt
  simp only [wordCell]
  omega

theorem storeHalf (priv : Bool) {a : Word} (v : BitVec 16) (hs : P s) (ha : misalignedHalf a = false) :
    (storeHalf priv a v s).Leaves P := by
  refine hk.store_leaves hs fun r t hr hwf => Memory.wf_writeHalf _ _ _ hwf (halfCell_lt _ ?_)
  have hlow : r.pa.getLsbD 0 = a.getLsbD 0 := by simpa using congrArg (fun x => x.getLsbD 0) (reach_low hr)
  exact hlow.trans ha

theorem storeByte (priv : Bool) (a : Word) (v : Byte) (hs : P s) : (storeByte priv a v s).Leaves P :=
  hk.store_leaves hs fun _ _ _ hwf => Memory.wf_write _ _ _ hwf (BitVec.isLt _)

/-! #### Data processing, multiplies, status registers -/

theorem writeAlu (op : DpOp) (sf : Bool) (rd : Reg) (x : AluOut) (hs : P s) : Gives Q (writeAlu op sf rd x s) := by
  unfold Machine.writeAlu
  split
  · exact hk.advance (hk.flags _ hs)
  · split
    · split
      · exact hk.returnTo _ hs
      · exact hk.jump _ hs
    · refine hk.advance (hk.setReg rd _ ?_)
      split
      · exact hk.flags _ hs
      · exact hs

theorem dataImm (op : DpOp) (c : Cond) (sf : Bool) (rn rd : Reg) (imm : RotatedImm) (hs : P s) :
    Gives Q (dataImm op c sf rn rd imm s) := hk.whenPassed hs (hk.writeAlu _ _ _ _ hs)

theorem dataReg (op : DpOp) (c : Cond) (sf : Bool) (rn rd : Reg) (sh : ShiftedReg) (hs : P s) :
    Gives Q (dataReg op c sf rn rd sh s) := hk.whenPassed hs (hk.writeAlu _ _ _ _ hs)

theorem dataRsr (op : DpOp) (c : Cond) (sf : Bool) (rn rd : Reg) (sh : RegShiftedReg) (hs : P s) :
    Gives Q (dataRsr op c sf rn rd sh s) := hk.whenPassed hs (.allowing fun _ => hk.writeAlu _ _ _ _ hs)

theorem writeMul (sf : Bool) (rd : Reg) (v : Word) (hs : P s) : Gives Q (writeMul sf rd v s) := by
  unfold Machine.writeMul
  split
  · exact hk.advance (hk.setReg rd v (hk.flags _ (hk.drawn hs)))
  · exact hk.advance (hk.setReg rd v hs)

theorem writeMulLong (sf : Bool) (hi lo : Reg) (p : BitVec 64) (hs : P s) : Gives Q (writeMulLong sf hi lo p s) := by
  unfold Machine.writeMulLong
  refine hk.advance (hk.setReg hi _ (hk.setReg lo _ ?_))
  split
  · exact hk.flags _ (hk.drawn (hk.drawn hs))
  · exact hs

theorem execMrs (c : Cond) (spsr : Bool) (rd : Reg) (hs : P s) : Gives Q (execMrs c spsr rd s) := by
  refine hk.whenPassed hs (.allowing fun _ => ?_)
  split
  · split
    · exact .refused _
    · exact hk.advance (hk.setReg rd _ (hk.drawn hs))
  · exact hk.advance (hk.setReg rd _ (hk.drawn hs))

theorem msrCpsr (mask : BitVec 4) (v : Word) (hs : P s) : Gives Q (msrCpsr mask v s) := by
  unfold Machine.msrCpsr
  simp only
  split
  · rename_i hc
    have hp : s.privileged = true := (Bool.and_eq_true _ _ ▸ hc : _ ∧ _).2
    split
    · exact .refused _
    · exact hk.advance (hk.cpsr _ hs hp)
  · exact hk.advance (hk.flags _ hs)

theorem msrSpsr (mask : BitVec 4) (v : Word) (hs : P s) : Gives Q (msrSpsr mask v s) := by
  unfold Machine.msrSpsr
  split
  · exact .refused _
  · rename_i p hp
    exact hk.advance (hk.spsr _ hs (State.privileged_of_spsrNow hp))

theorem msr (spsr : Bool) (mask : BitVec 4) (v : Word) (hs : P s) : Gives Q (msr spsr mask v s) := by
  unfold Machine.msr
  split
  · exact hk.msrSpsr mask v hs
  · exact hk.msrCpsr mask v hs

/-! #### Single and halfword transfers, swaps -/

theorem loadPc (v : Word) (hs : P s) : Gives Q (loadPc v s) := by
  unfold Machine.loadPc
  split
  · exact .refused _
  · exact hk.jump v hs

theorem transferLoadWord (priv : Bool) (ix : Indexing) (rn rd : Reg) (offset : Word) (hs : P s) :
    Gives Q (transferLoadWord priv ix rn rd offset s) := by
  unfold Machine.transferLoadWord
  simp only
  split
  · exact hk.alignmentAbort _ hs
  · split
    · exact .refused _
    · refine hk.run (hk.leaves hs (Within.loadWord ..)) fun v t ht => ?_
      split
      · exact hk.loadPc v (hk.writeBack ix rn _ ht)
      · exact hk.advance (hk.setReg rd _ (hk.writeBack ix rn _ ht))

theorem transferLoadByte (priv : Bool) (ix : Indexing) (rn rd : Reg) (offset : Word) (hs : P s) :
    Gives Q (transferLoadByte priv ix rn rd offset s) :=
  hk.run (hk.leaves hs (Within.loadByte ..)) fun _ _ ht => hk.advance (hk.setReg rd _ (hk.writeBack ix rn _ ht))

theorem transferStoreWord (priv : Bool) (ix : Indexing) (rn rd : Reg) (offset : Word) (hs : P s) :
    Gives Q (transferStoreWord priv ix rn rd offset s) := by
  unfold Machine.transferStoreWord
  simp only
  split
  · exact hk.alignmentAbort _ hs
  · exact hk.run (hk.storeWord _ _ _ hs) fun _ _ ht => hk.advance (hk.writeBack ix rn _ ht)

theorem transferStoreByte (priv : Bool) (ix : Indexing) (rn rd : Reg) (offset : Word) (hs : P s) :
    Gives Q (transferStoreByte priv ix rn rd offset s) :=
  hk.run (hk.storeByte _ _ _ hs) fun _ _ ht => hk.advance (hk.writeBack ix rn _ ht)

theorem whenEven {a : Word} {k : Result} (hs : P s) (h : misalignedHalf a = false → Gives Q k) :
    Gives Q (whenEven a s k) := by
  unfold Machine.whenEven
  split
  · split
    · exact hk.alignmentAbort _ hs
    · exact .refused _
  · rename_i ha
    exact h (by simpa using ha)

theorem transferLoadHalf (widen : BitVec 16 → Word) (ix : Indexing) (rn rd : Reg) (offset : Word) (hs : P s) :
    Gives Q (transferLoadHalf widen ix rn rd offset s) :=
  hk.whenEven hs fun _ => hk.run (hk.leaves hs (Within.loadHalf ..)) fun _ _ ht =>
    hk.advance (hk.setReg rd _ (hk.writeBack ix rn _ ht))

theorem transferLoadSignedByte (ix : Indexing) (rn rd : Reg) (offset : Word) (hs : P s) :
    Gives Q (transferLoadSignedByte ix rn rd offset s) :=
  hk.run (hk.leaves hs (Within.loadByte ..)) fun _ _ ht => hk.advance (hk.setReg rd _ (hk.writeBack ix rn _ ht))

theorem transferStoreHalf (ix : Indexing) (rn rd : Reg) (offset : Word) (hs : P s) :
    Gives Q (transferStoreHalf ix rn rd offset s) :=
  hk.whenEven hs fun ha => hk.run (hk.storeHalf _ _ hs ha) fun _ _ ht => hk.advance (hk.writeBack ix rn _ ht)

theorem swapWord (rn rd rm : Reg) (hs : P s) : Gives Q (swapWord rn rd rm s) := by
  unfold Machine.swapWord
  simp only
  split
  · exact hk.alignmentAbort _ hs
  · exact hk.run (hk.leaves hs (Within.loadWord ..)) fun _ _ ht =>
      hk.run (hk.storeWord _ _ _ ht) fun _ _ hu => hk.advance (hk.setReg rd _ hu)

theorem swapByte (rn rd rm : Reg) (hs : P s) : Gives Q (swapByte rn rd rm s) :=
  hk.run (hk.leaves hs (Within.loadByte ..)) fun _ _ ht =>
    hk.run (hk.storeByte _ _ _ ht) fun _ _ hu => hk.advance (hk.setReg rd _ hu)

/-! #### Coprocessor registers -/

theorem tlbOp (crm : BitVec 4) (op2 : BitVec 3) (v : Word) (hs : P s) : Gives Q (tlbOp crm op2 v s) := by
  unfold Machine.tlbOp
  split
  · exact .refused _
  · have hm := hk.remapped s.cp15.control.m hs
    split
    · exact hk.advance (hk.tlb hm (by simp))
    · refine hk.advance (hk.tlb hm fun e he => ?_)
      rw [State.remapped_eq]
      exact (List.mem_filter.1 he).1

theorem cp15Write (crn crm : BitVec 4) (op2 : BitVec 3) (v : Word) (hs : P s) (hp : s.privileged = true) :
    Gives Q (cp15Write crn crm op2 v s) := by
  have hm : ∀ b x, P ((s.remapped b).withCp15 x) := fun b x =>
    hk.cp15 x (hk.remapped b hs) (by rw [State.remapped_eq]; exact hp)
  unfold Machine.cp15Write
  split
  · exact hk.advance (hm _ _)
  · exact hk.advance (hm _ _)
  · exact hk.advance (hk.cp15 _ hs hp)
  · exact hk.advance (hk.cp15 _ hs hp)
  · exact hk.advance (hk.cp15 _ hs hp)
  · unfold cacheOp
    split
    · exact hk.advance hs
    · exact .refused _
  · exact hk.tlbOp _ _ _ hs
  · exact .refused _

theorem execMcr (c : Cond) (op1 : BitVec 3) (crn : BitVec 4) (rd : Reg) (op2 : BitVec 3) (crm : BitVec 4) (hs : P s) :
    Gives Q (execMcr c op1 crn rd op2 crm s) := by
  refine hk.whenPassed hs ?_
  split
  · rename_i hp
    exact .allowing fun _ => hk.cp15Write _ _ _ _ hs hp
  · exact hk.undefinedTrap hs

theorem execMrc (c : Cond) (op1 : BitVec 3) (crn : BitVec 4) (rd : Reg) (op2 : BitVec 3) (crm : BitVec 4) (hs : P s) :
    Gives Q (execMrc c op1 crn rd op2 crm s) := by
  refine hk.whenPassed hs ?_
  split
  · split
    · exact .refused _
    · unfold writeMrc
      split
      · exact hk.advance (hk.flags _ (hk.drawn hs))
      · exact hk.advance (hk.setReg rd _ (hk.drawn hs))
  · exact hk.undefinedTrap hs

/-! #### Block transfers -/

theorem writeLoaded {m : Mode} (vs : List Loaded) (hs : P s) (hm : m = s.cpsr.mode ∨ m = .usr) :
    P (writeLoaded m vs s) := by
  induction vs generalizing s with
  | nil => exact hs
  | cons x xs ih =>
    refine ih ?_ ?_
    · split
      · exact hs
      · exact hk.setRegOf _ _ hs hm
    · split
      · exact hm
      · rwa [State.setRegOf_cpsr]

theorem leaveLoaded {m : Mode} (base : Option PReg) (vs : List Loaded) (hs : P s) (hm : m = s.cpsr.mode ∨ m = .usr) :
    P (leaveLoaded m base vs s) := by
  induction vs generalizing s with
  | nil => exact hs
  | cons x xs ih =>
    unfold Machine.leaveLoaded
    split
    · exact ih hs hm
    · split
      · exact ih (hk.setRegOf _ _ (hk.drawn hs) hm) (by rwa [State.setRegOf_cpsr])
      · exact ih (hk.drawn hs) hm

theorem readBlock (rs : List Reg) (a : Word) (hs : P s) : (readBlock rs a s).Leaves P := by
  induction rs generalizing a s with
  | nil => exact hs
  | cons r rs ih =>
    unfold Machine.readBlock
    have hl := hk.leaves hs (Within.loadWord .read s.privileged a s)
    cases hx : Machine.loadWord .read s.privileged a s <;> rw [hx] at hl
    case ok v u => exact (ih (a + 4#32) hl).cons _
    case abort f u => exact hl
    all_goals trivial

theorem leaveStored (vs : List Word) (a : Word) (hs : P s) : P (leaveStored vs a s) := by
  induction vs generalizing a s with
  | nil => exact hs
  | cons v vs ih =>
    have hd := hk.drawn hs
    have hl := hk.storeWord s.privileged a v hd
    unfold Machine.leaveStored
    split
    · split
      · rename_i hx
        rw [hx] at hl
        exact ih _ hl
      · exact ih _ hd
    · exact ih _ hd

theorem writeBlock (vs : List Word) (a : Word) (hs : P s) : (writeBlock vs a s).Leaves P := by
  induction vs generalizing a s with
  | nil => exact hs
  | cons v vs ih =>
    unfold Machine.writeBlock
    have hl := hk.storeWord s.privileged a v hs
    cases hx : Machine.storeWord s.privileged a v s <;> rw [hx] at hl
    case ok u => exact ih (a + 4#32) hl
    case abort f u => exact hk.leaveStored _ _ hl
    all_goals trivial

theorem blockWriteBack (bm : BlockMode) (rn : Reg) (list : BitVec 16) (base : Word) (hs : P s) :
    P (blockWriteBack bm rn list base s) := by
  unfold Machine.blockWriteBack
  split
  · exact hk.setReg rn _ hs
  · exact hs

theorem finishLoad (bm : BlockMode) (rn : Reg) (list : BitVec 16) (base : Word) (vs : List Loaded) (hs : P s) :
    Gives Q (finishLoad bm rn list base vs s) := by
  have hcpsr : (Machine.blockWriteBack bm rn list base s).cpsr = s.cpsr := by
    unfold Machine.blockWriteBack
    split
    · exact State.setReg_cpsr ..
    · rfl
  have ht := hk.writeLoaded vs (hk.blockWriteBack bm rn list base hs)
    (by rw [hcpsr]; exact blockBank_cases true bm list s.cpsr.mode)
  unfold Machine.finishLoad
  simp only
  split
  · unfold loadBlockPc
    split
    · exact .refused _
    · split
      · exact hk.returnTo _ ht
      · exact hk.jump _ ht
  · exact hk.advance (hk.hazard _ ht)

theorem loadBlock (bm : BlockMode) (rn : Reg) (list : BitVec 16) (hs : P s) : Gives Q (loadBlock bm rn list s) := by
  unfold Machine.loadBlock
  simp only
  have hl := hk.readBlock (regsOf list) (blockStart bm (s.readReg rn) list) hs
  split <;> rename_i hx <;> rw [hx] at hl
  · exact hk.finishLoad _ _ _ _ _ hl
  · refine hk.dataAbort _ _ (hk.leaveLoaded _ _ hl ?_)
    rw [(readBlock_aborted hx).cpsr]
    exact blockBank_cases true bm list s.cpsr.mode
  · exact .fault _
  · exact .refused _

theorem storeBlock (bm : BlockMode) (rn : Reg) (list : BitVec 16) (hs : P s) : Gives Q (storeBlock bm rn list s) := by
  unfold Machine.storeBlock
  simp only
  have hl := hk.writeBlock (storedValues bm list s) (blockStart bm (s.readReg rn) list) hs
  split <;> rename_i hx <;> rw [hx] at hl
  · exact hk.advance (hk.blockWriteBack _ _ _ _ hl)
  · exact hk.dataAbort _ _ hl
  · exact .fault _
  · exact .refused _

theorem whenBaseAligned {loadsPc : Bool} {base start : Word} {k : Result} (hs : P s) (h : Gives Q k) :
    Gives Q (whenBaseAligned loadsPc base start s k) := by
  unfold Machine.whenBaseAligned
  split
  · split
    · exact hk.alignmentAbort _ hs
    · split
      · exact .refused _
      · exact h
  · exact h

theorem execLdm (c : Cond) (bm : BlockMode) (rn : Reg) (list : BitVec 16) (hs : P s) :
    Gives Q (execLdm c bm rn list s) :=
  hk.whenPassed hs (.allowing fun _ => .allowing fun _ => .allowing fun _ =>
    hk.whenBaseAligned hs (hk.loadBlock bm rn list hs))

theorem execStm (c : Cond) (bm : BlockMode) (rn : Reg) (list : BitVec 16) (hs : P s) :
    Gives Q (execStm c bm rn list s) :=
  hk.whenPassed hs (.allowing fun _ => .allowing fun _ => .allowing fun _ =>
    hk.whenBaseAligned hs (hk.storeBlock bm rn list hs))

/-! #### Every instruction -/

/-- Every instruction keeps what each change of its state keeps. -/
theorem exec (i : Instr) (hs : P s) : Gives Q (exec i s) := by
  cases i with
  | andImm | eorImm | subImm | rsbImm | addImm | adcImm | sbcImm | rscImm | tstImm | teqImm | cmpImm | cmnImm | orrImm
  | movImm | bicImm | mvnImm => exact hk.dataImm _ _ _ _ _ _ hs
  | andReg | eorReg | subReg | rsbReg | addReg | adcReg | sbcReg | rscReg | tstReg | teqReg | cmpReg | cmnReg | orrReg
  | movReg | bicReg | mvnReg => exact hk.dataReg _ _ _ _ _ _ hs
  | andRsr | eorRsr | subRsr | rsbRsr | addRsr | adcRsr | sbcRsr | rscRsr | tstRsr | teqRsr | cmpRsr | cmnRsr | orrRsr
  | movRsr | bicRsr | mvnRsr => exact hk.dataRsr _ _ _ _ _ _ hs
  | mul | mla => exact hk.whenPassed hs (.allowing fun _ => hk.writeMul _ _ _ hs)
  | umull | umlal | smull | smlal => exact hk.whenPassed hs (.allowing fun _ => hk.writeMulLong _ _ _ _ hs)
  | mrs => exact hk.execMrs _ _ _ hs
  | msrReg => exact hk.whenPassed hs (.allowing fun _ => hk.msr _ _ _ hs)
  | msrImm => exact hk.whenPassed hs (hk.msr _ _ _ hs)
  | ldrImm | ldrReg | ldrtImm | ldrtReg =>
    exact hk.whenPassed hs (.allowing fun _ => hk.transferLoadWord _ _ _ _ _ hs)
  | ldrbImm | ldrbReg | ldrbtImm | ldrbtReg =>
    exact hk.whenPassed hs (.allowing fun _ => hk.transferLoadByte _ _ _ _ _ hs)
  | strImm | strReg | strtImm | strtReg =>
    exact hk.whenPassed hs (.allowing fun _ => hk.transferStoreWord _ _ _ _ _ hs)
  | strbImm | strbReg | strbtImm | strbtReg =>
    exact hk.whenPassed hs (.allowing fun _ => hk.transferStoreByte _ _ _ _ _ hs)
  | strhReg | strhImm => exact hk.whenPassed hs (.allowing fun _ => hk.transferStoreHalf _ _ _ _ hs)
  | ldrhReg | ldrhImm | ldrshReg | ldrshImm =>
    exact hk.whenPassed hs (.allowing fun _ => hk.transferLoadHalf _ _ _ _ _ hs)
  | ldrsbReg | ldrsbImm => exact hk.whenPassed hs (.allowing fun _ => hk.transferLoadSignedByte _ _ _ _ hs)
  | swp => exact hk.whenPassed hs (.allowing fun _ => hk.swapWord _ _ _ hs)
  | swpb => exact hk.whenPassed hs (.allowing fun _ => hk.swapByte _ _ _ hs)
  | ldm => exact hk.execLdm _ _ _ _ hs
  | stm => exact hk.execStm _ _ _ _ hs
  | b => exact hk.whenPassed hs (.allowing fun _ => hk.jump _ hs)
  | bl => exact hk.whenPassed hs (.allowing fun _ => hk.jump _ (hk.setReg _ _ hs))
  | swi => exact hk.whenPassed hs (hk.softwareInterrupt hs)
  | imb => exact hk.whenPassed hs (hk.softwareInterrupt (hk.barrier hs))
  | imbRange => exact hk.whenPassed hs (hk.softwareInterrupt (hk.barrierOver _ hs))
  | mrc c op1 crn rd op2 crm => exact hk.execMrc c op1 crn rd op2 crm hs
  | mcr c op1 crn rd op2 crm => exact hk.execMcr c op1 crn rd op2 crm hs
  | undefined | ldc | stc | cdp | mrcOther | mcrOther => exact hk.whenPassed hs (hk.undefinedTrap hs)

/-- The fetch changes the TLB and the draws only (20_memory.md R92). -/
theorem fetch (hs : P s) : (fetch s).Leaves P := by
  have hr := hk.leaves hs (Within.reach .fetch s.privileged 4 s.pc s)
  unfold Machine.fetch
  split
  · trivial
  · split <;> rename_i hx
    · rw [hx] at hr
      split
      · trivial
      · exact decodeFetched_leaves _ hr
    · rw [hx] at hr
      exact hr
    · trivial
    · trivial

/-- The first part of a step, fetch and execution, keeps what every instruction keeps. -/
theorem runInstruction (hs : P s) : Gives Q (runInstruction s) := by
  have hf := hk.fetch hs
  unfold Machine.runInstruction
  cases hx : Machine.fetch s <;> rw [hx] at hf
  case instr i t =>
    simp only [execChecked]
    split
    · exact .refused _
    · exact hk.exec i (hk.hazard false hf)
  case never t => exact hk.advance (hk.hazard false hf)
  case aborted t => exact .next (hk.entry _ _ hf)
  case stuck r => exact .fault r
  case refused r => exact .refused r

end Keeps

end Sys2Proof.Machine
end

section
/-! PROOF. O58 and O59: the invariant holds after reset, and every step keeps it. -/

namespace Sys2Proof.Machine

/-- The fields the invariant speaks of decide it. -/
theorem State.Inv.congr {s t : State} (hs : s.Inv) (hmem : t.mem = s.mem) (hpc : t.pc = s.pc) (hstale : t.stale = s.stale)
    (htlb : t.tlb = s.tlb) (hold : t.oldMaps = s.oldMaps) : t.Inv :=
  ⟨hmem ▸ hs.mem, hpc ▸ hs.pc, hstale ▸ hs.stale, htlb ▸ hs.tlb, hold ▸ hs.old⟩

/-- The exception vectors are word addresses (60_exceptions.md R439). -/
theorem Exc.wordAligned_vector (e : Exc) : wordAligned e.vector = e.vector := by cases e <;> decide

theorem State.Inv.takeException {s : State} (hs : s.Inv) (e : Exc) (ret : Word) : (takeException e ret s).Inv :=
  ⟨hs.mem, e.wordAligned_vector, hs.stale, hs.tlb, hs.old⟩

theorem State.Inv.recordFault {s : State} (hs : s.Inv) (f : FaultStatus) (far : Word) : (s.recordFault f far).Inv :=
  hs.congr rfl rfl rfl rfl rfl

theorem State.Inv.remapped {s : State} (hs : s.Inv) (changed : Bool) : (s.remapped changed).Inv := by
  cases changed
  · exact hs
  · exact ⟨hs.mem, hs.pc, hs.stale, hs.tlb, List.forall_mem_cons.2 ⟨⟨hs.mem, hs.tlb⟩, hs.old⟩⟩

theorem State.Inv.markStale {s : State} (hs : s.Inv) (pa : Word) : (s.markStale pa).Inv :=
  ⟨hs.mem, hs.pc,
    List.forall_mem_cons.2 ⟨by simp [StaleWord.wf], fun w hw => hs.stale w (List.mem_filter.1 hw).1⟩, hs.tlb, hs.old⟩

theorem State.Inv.stored {s : State} (hs : s.Inv) (r : Reached) {m : Memory} (hm : m.wf = true) : (s.stored r m).Inv := by
  unfold State.stored
  split
  · exact hs
  · have ht := hs.remapped (remapsAt s r.pa)
    exact State.Inv.markStale (s := (s.remapped (remapsAt s r.pa)).withMem m) ⟨hm, ht.pc, ht.stale, ht.tlb, ht.old⟩ r.pa

theorem State.Inv.barrierOver {s : State} (hs : s.Inv) (x : AddrRange) : (s.barrierOver x).Inv :=
  ⟨hs.mem, hs.pc, List.forall_mem_map.2 hs.stale, hs.tlb, List.forall_mem_map.2 hs.old⟩

/-- Every change an instruction makes keeps the invariant. -/
theorem keeps_inv : Keeps State.Inv State.Inv where
  lookup := fun hs ⟨hl, htlb⟩ =>
    ⟨hl.mem ▸ hs.mem, hl.pc ▸ hs.pc, hl.stale ▸ hs.stale, htlb hs.tlb, hl.oldMaps ▸ hs.old⟩
  flags := fun _ hs => hs.congr rfl rfl rfl rfl rfl
  cpsr := fun _ hs _ => hs.congr rfl rfl rfl rfl rfl
  spsr := fun _ hs _ => hs.congr rfl rfl rfl rfl rfl
  cp15 := fun _ hs _ => hs.congr rfl rfl rfl rfl rfl
  reg := fun _ hs _ _ => hs.congr rfl rfl rfl rfl rfl
  pc := fun v hs => ⟨hs.mem, wordAligned_idem v, hs.stale, hs.tlb, hs.old⟩
  next := fun hs => ⟨hs.mem, wordAligned_add hs.pc (by decide), hs.stale, hs.tlb, hs.old⟩
  stored := fun r _ hs hm => hs.stored r (hm hs.mem)
  remapped := fun changed hs => hs.remapped changed
  tlb := fun hs hx => ⟨hs.mem, hs.pc, hs.stale, fun e he => hs.tlb e (hx e he), hs.old⟩
  hazard := fun _ hs => hs.congr rfl rfl rfl rfl rfl
  barrier := fun hs => ⟨hs.mem, hs.pc, nofun, hs.tlb, nofun⟩
  barrierOver := fun x hs => hs.barrierOver x
  done := id
  entry := fun e ret hs => hs.takeException e ret
  faultEntry := fun ret f far hs => (hs.recordFault f far).takeException .dataAbort ret

/-- The interrupts at the end of a step keep the invariant (60_exceptions.md R452). -/
theorem State.Inv.takeInterrupt {s : State} (hs : s.Inv) : (takeInterrupt s).Inv := by
  unfold Machine.takeInterrupt
  split
  · exact hs.takeException _ _
  · split
    · exact hs.takeException _ _
    · exact hs

/-- The state in which a reset is taken has the invariant's memory and TLB, and the reset gives the rest
(70_reset_and_hazards.md R490; 20_memory.md R96). -/
theorem State.Inv.resetEntry_abandon {s : State} (hs : s.Inv) : (resetEntry (abandon s)).Inv where
  mem := (abandon_mem hs.mem fun t ht => (keeps_inv.runInstruction hs t ht).mem).1
  pc := by simp only [resetEntry]; decide
  stale := nofun
  tlb := by
    have htlb : (abandon s).tlb = s.tlb := by rw [abandon_eq]; rfl
    exact htlb ▸ hs.tlb
  old := nofun

/-- Settles O58. -/
theorem invAtReset : Obligations.InvAtReset := ⟨by decide, by decide, nofun, nofun, nofun⟩

/-- Settles O59: a reset gives a state with the invariant, and else each change the instruction makes keeps it
(`keeps_inv`), and so do the interrupts. -/
theorem invKept : Obligations.InvKept := by
  intro s t hs h
  unfold step at h
  split at h
  · cases h
    exact hs.resetEntry_abandon.congr rfl rfl rfl rfl rfl
  · cases hr : runInstruction s <;> rw [hr] at h <;> cases h
    exact (keeps_inv.runInstruction hs _ hr).takeInterrupt.congr rfl rfl rfl rfl rfl

end Sys2Proof.Machine
end

section
/-! PROOF. O60: what a step from User mode can do (10_state.md R46; 43_psr_transfer.md R255; 60_exceptions.md R471, R472). -/

namespace Sys2Proof.Machine

/-- From `s` to `t`, both in User mode, nothing changes that User mode may not change: interrupt masks, SPSRs, CP15, and
the registers of another mode's bank (10_state.md R46; 43_psr_transfer.md R255). -/
structure UserKept (s t : State) : Prop where
  mode : t.cpsr.mode = .usr
  i    : t.cpsr.i = s.cpsr.i
  f    : t.cpsr.f = s.cpsr.f
  spsr : t.spsr = s.spsr
  cp15 : t.cp15 = s.cp15
  regs : ∀ p, (∀ n, Mode.usr.bank n ≠ some p) → t.regs.get p = s.regs.get p

/-- The machine is at one of the seven vectors, in a mode other than User and System with IRQ disabled (20_memory.md R98;
60_exceptions.md R471, R472). -/
structure AtVector (t : State) : Prop where
  notUser   : t.cpsr.mode ≠ .usr
  notSystem : t.cpsr.mode ≠ .sys
  i         : t.cpsr.i = true
  pc        : t.pc ∈ [0x00#32, 0x04#32, 0x08#32, 0x0C#32, 0x10#32, 0x18#32, 0x1C#32]

/-- No exception enters User or System mode (60_exceptions.md R439). -/
theorem Exc.mode_ne (e : Exc) : e.mode ≠ .usr ∧ e.mode ≠ .sys := by cases e <;> decide

/-- Every exception goes to a vector (60_exceptions.md R430, R439). -/
theorem takeException_atVector (e : Exc) (ret : Word) (s : State) : AtVector (takeException e ret s) where
  notUser := e.mode_ne.1
  notSystem := e.mode_ne.2
  i := rfl
  pc := by rw [takeException_pc]; cases e <;> decide

theorem UserKept.refl {s : State} (hm : s.cpsr.mode = .usr) : UserKept s s := ⟨hm, rfl, rfl, rfl, rfl, fun _ _ => rfl⟩

/-- The fields of which `UserKept` speaks decide it. -/
theorem UserKept.congr {s t u : State} (h : UserKept s t) (hregs : u.regs = t.regs) (hmode : u.cpsr.mode = t.cpsr.mode)
    (hi : u.cpsr.i = t.cpsr.i) (hf : u.cpsr.f = t.cpsr.f) (hspsr : u.spsr = t.spsr) (hcp15 : u.cp15 = t.cp15) :
    UserKept s u :=
  ⟨hmode.trans h.mode, hi.trans h.i, hf.trans h.f, hspsr.trans h.spsr, hcp15.trans h.cp15, hregs ▸ h.regs⟩

/-- User mode is not privileged. -/
theorem UserKept.not_privileged {s t : State} (h : UserKept s t) (hp : t.privileged = true) : False := by
  simp [State.privileged, h.mode, Mode.privileged] at hp

/-- A register of the User bank may change. -/
theorem UserKept.setUserReg {s t : State} {n : Reg} {p : PReg} (h : UserKept s t) (hp : Mode.usr.bank n = some p)
    (v : Word) : UserKept s (t.withRegs (t.regs.set p v)) :=
  ⟨h.mode, h.i, h.f, h.spsr, h.cp15, fun q hq =>
    (Regs.get_set_of_ne _ v (by rintro rfl; exact hq n hp)).trans (h.regs q hq)⟩

/-- Every change an instruction makes from User mode keeps what User mode may not change, or is an exception. -/
theorem keeps_user (s : State) : Keeps (UserKept s) fun t => UserKept s t ∨ AtVector t where
  lookup := fun h ⟨hl, _⟩ => h.congr hl.regs (hl.cpsr ▸ rfl) (hl.cpsr ▸ rfl) (hl.cpsr ▸ rfl) hl.spsr hl.cp15
  flags := fun _ h => h.congr rfl rfl rfl rfl rfl rfl
  cpsr := fun _ h hp => (h.not_privileged hp).elim
  spsr := fun _ h hp => (h.not_privileged hp).elim
  cp15 := fun _ h hp => (h.not_privileged hp).elim
  reg := fun v h hm hp => h.setUserReg (hm.elim (·.trans h.mode) id ▸ hp) v
  pc := fun _ h => h.congr rfl rfl rfl rfl rfl rfl
  next := fun h => h.congr rfl rfl rfl rfl rfl rfl
  stored := fun r m h _ => by rw [State.stored_eq]; exact h.congr rfl rfl rfl rfl rfl rfl
  remapped := fun changed h => by rw [State.remapped_eq]; exact h.congr rfl rfl rfl rfl rfl rfl
  tlb := fun h _ => h.congr rfl rfl rfl rfl rfl rfl
  hazard := fun _ h => h.congr rfl rfl rfl rfl rfl rfl
  barrier := fun h => h.congr rfl rfl rfl rfl rfl rfl
  barrierOver := fun _ h => h.congr rfl rfl rfl rfl rfl rfl
  done := .inl
  entry := fun e ret _ => .inr (takeException_atVector e ret _)
  faultEntry := fun ret _ _ _ => .inr (takeException_atVector .dataAbort ret _)

/-- The interrupts at the end of a step go to a vector or leave the state as it is (60_exceptions.md R452). -/
theorem takeInterrupt_cases (s : State) : takeInterrupt s = s ∨ AtVector (takeInterrupt s) := by
  unfold takeInterrupt
  split
  · exact .inr (takeException_atVector _ _ _)
  · split
    · exact .inr (takeException_atVector _ _ _)
    · exact .inl rfl

/-- A reset goes to the first vector (70_reset_and_hazards.md R490). -/
theorem resetEntry_atVector (s : State) : AtVector (resetEntry s) where
  notUser := by simp [resetEntry]
  notSystem := by simp [resetEntry]
  i := rfl
  pc := by simp [resetEntry]

/-- The inputs of the next step do not matter to it. -/
theorem AtVector.nextInputs {t : State} (h : AtVector t) : AtVector t.nextInputs := ⟨h.notUser, h.notSystem, h.i, h.pc⟩

/-- All that a step from User mode can do. -/
theorem step_of_user {s t : State} (hm : s.cpsr.mode = .usr) (h : step s = .next t) : UserKept s t ∨ AtVector t := by
  unfold step at h
  split at h
  · cases h
    exact .inr (resetEntry_atVector _).nextInputs
  · cases hr : runInstruction s <;> rw [hr] at h <;> cases h
    rename_i u
    rcases takeInterrupt_cases u with hi | hi
    · rw [hi]
      exact ((keeps_user s).runInstruction (.refl hm) u hr).imp
        (fun hu => hu.congr rfl rfl rfl rfl rfl rfl) AtVector.nextInputs
    · exact .inr hi.nextInputs

/-- Settles O60: the changes an instruction makes from User mode leave privileged state alone, since each change of it asks
for a privileged mode, or they end at a vector (`step_of_user`). -/
theorem userModeConfined : Obligations.UserModeConfined := by
  intro s t hm h
  rcases step_of_user hm h with hu | hv
  · exact .inl ⟨hu.mode, hu.i, hu.f, hu.spsr, hu.cp15, hu.regs⟩
  · exact .inr ⟨hv.notUser, hv.notSystem, hv.i, hv.pc⟩

end Sys2Proof.Machine
end

section
/-! PROOF. O5: the register banks (10_state.md R23 to R25, R31). -/

namespace Sys2Proof.Machine

/-- R0 to R7 are one copy for every mode (10_state.md R24). -/
theorem Mode.bank_low (m : Mode) (n : Reg) (h : n.toNat < 8) : m.bank n = Mode.usr.bank n := by
  cases m <;> revert n <;> decide

/-- R8 to R12 have a second copy, in FIQ mode (10_state.md R24). -/
theorem Mode.bank_mid_iff (m k : Mode) (n : Reg) (h : 8 ≤ n.toNat) (h' : n.toNat ≤ 12) :
    m.bank n = k.bank n ↔ (m = .fiq ↔ k = .fiq) := by
  have hfiq : Mode.fiq.bank n ≠ Mode.usr.bank n := by revert n; decide
  have husr : ∀ m : Mode, m ≠ .fiq → m.bank n = Mode.usr.bank n := by
    intro m hm
    cases m
    case fiq => exact absurd rfl hm
    all_goals revert n; decide
  by_cases hm : m = .fiq <;> by_cases hk : k = .fiq
  · simp [hm, hk]
  · simp [hm, hk, husr k hk, hfiq]
  · simp [hm, hk, husr m hm, hfiq.symm]
  · simp [hm, hk, husr m hm, husr k hk]

/-- Two modes share R13 only if they are the same, or User and System mode (10_state.md R24). -/
theorem Mode.bank13_eq_iff (m k : Mode) :
    m.bank13 = k.bank13 ↔ m = k ∨ (m = .usr ∨ m = .sys) ∧ (k = .usr ∨ k = .sys) := by
  cases m <;> cases k <;> decide

/-- Two modes share R14 only if they are the same, or User and System mode (10_state.md R24). -/
theorem Mode.bank14_eq_iff (m k : Mode) :
    m.bank14 = k.bank14 ↔ m = k ∨ (m = .usr ∨ m = .sys) ∧ (k = .usr ∨ k = .sys) := by
  cases m <;> cases k <;> decide

/-- The number under which a physical register is named, in every mode that names it (10_state.md R24). -/
def PReg.number : PReg → Reg
  | .r0 => 0#4 | .r1 => 1#4 | .r2 => 2#4 | .r3 => 3#4 | .r4 => 4#4 | .r5 => 5#4 | .r6 => 6#4 | .r7 => 7#4
  | .r8Usr | .r8Fiq => 8#4 | .r9Usr | .r9Fiq => 9#4 | .r10Usr | .r10Fiq => 10#4 | .r11Usr | .r11Fiq => 11#4
  | .r12Usr | .r12Fiq => 12#4
  | .r13Usr | .r13Fiq | .r13Irq | .r13Svc | .r13Abt | .r13Und => 13#4
  | .r14Usr | .r14Fiq | .r14Irq | .r14Svc | .r14Abt | .r14Und => 14#4

/-- A physical register is named by its number only, whatever the mode. -/
theorem Mode.bank_number {m : Mode} {n : Reg} {p : PReg} (h : m.bank n = some p) : p.number = n := by
  have hall : ∀ n : Reg, (m.bank n).map PReg.number = if n = 15#4 then none else some n := by cases m <;> decide
  have hn := hall n
  rw [h] at hn
  split at hn
  · cases hn
  · simpa using hn

/-- Settles O5. -/
theorem registerBanks : Obligations.RegisterBanks := by
  refine ⟨fun m k n => ⟨fun h => (m.bank_low n h).trans (k.bank_low n h).symm, m.bank_mid_iff k n, ?_,
    m.bank_eq_none n⟩, fun m k n o hne h => ?_, fun s hs => ?_⟩
  · rintro (rfl | rfl)
    · simpa using m.bank13_eq_iff k
    · simpa using m.bank14_eq_iff k
  · cases hb : m.bank n with
    | none => rfl
    | some p => exact absurd ((Mode.bank_number hb).symm.trans (Mode.bank_number (h ▸ hb))) hne
  · rw [State.readReg_pc, State.readPc, wordAligned_add hs (by decide)]

end Sys2Proof.Machine
end

section
/-! PROOF. O48: what MRC reads from CP15 (10_state.md R61 to R71; 49_coprocessor_undefined.md R391, R396). -/

namespace Sys2Proof.Machine

/-- What an instruction that makes no access keeps, field by field. -/
theorem AllKept.of_eq {s t : State} (hcpsr : t.cpsr = { s.cpsr with flags := t.cpsr.flags }) (hspsr : t.spsr = s.spsr)
    (hcp15 : t.cp15 = s.cp15) (hmaps : t.oldMaps = s.oldMaps) (hplat : t.plat = s.plat) (henv : t.env = s.env)
    (hhazard : t.bankHazard = s.bankHazard) (htlb : t.tlb = s.tlb) (hmem : t.mem = s.mem) (hstale : t.stale = s.stale) :
    AllKept s t where
  rest := ⟨⟨by rw [hcpsr], by rw [hcpsr], by rw [hcpsr], hspsr, hcp15⟩, ⟨hmaps, hplat, henv⟩, hhazard⟩
  tlb := htlb
  mem := ⟨fun a => by rw [hmem], hstale⟩

/-- The registers of CP15 that can be read (10_state.md R61). -/
theorem readable_cases {crn : BitVec 4} (h : crn.toNat ∈ [0, 1, 2, 3, 5, 6]) :
    crn = 0#4 ∨ crn = 1#4 ∨ crn = 2#4 ∨ crn = 3#4 ∨ crn = 5#4 ∨ crn = 6#4 := by
  revert crn; decide

/-- The control register is read back from its word (10_state.md R63). -/
theorem controlOf_controlWord (k : Control) (free : Word) : controlOf (controlWord k free) = k := by
  obtain ⟨m, a, c, w, b, s, r, z⟩ := k
  simp only [controlOf, controlWord, Control.mk.injEq, BitVec.getLsbD_append]
  simp

/-- The defined bits of register `crn` of CP15, at their places in the word `v` (10_state.md R61 to R67). -/
structure Cp15View (s : State) (crn : BitVec 4) (v : Word) : Prop where
  id      : crn = 0#4 → v = s.plat.cp15Id
  control : crn = 1#4 → controlOf v = s.cp15.control
  ttb     : crn = 2#4 → v.extractLsb' 14 18 = s.cp15.ttb
  dac     : crn = 3#4 → v = s.cp15.dac
  fsr     : crn = 5#4 → v.extractLsb' 0 4 = s.cp15.fsrStatus ∧ v.extractLsb' 4 4 = s.cp15.fsrDomain ∧
              v.getLsbD 8 = false
  far     : crn = 6#4 → v = s.cp15.far

/-- The fields of the fault status register in its word (10_state.md R66). -/
theorem fsrWord_fields (free : BitVec 23) (domain status : BitVec 4) :
    (free ++ 0#1 ++ domain ++ status : Word).extractLsb' 0 4 = status ∧
    (free ++ 0#1 ++ domain ++ status : Word).extractLsb' 4 4 = domain ∧
    (free ++ 0#1 ++ domain ++ status : Word).getLsbD 8 = false := by
  refine ⟨BitVec.extractLsb'_append_eq_right, ?_, ?_⟩
  · rw [BitVec.extractLsb'_append_eq_of_le (by decide)]
    exact BitVec.extractLsb'_append_eq_right
  · simp only [BitVec.getLsbD_append]
    simp

/-- A readable register is read with its defined bits (10_state.md R61 to R67). -/
theorem cp15Read_some (s : State) {crn : BitVec 4} (free : Word) (h : crn.toNat ∈ [0, 1, 2, 3, 5, 6]) :
    ∃ v, cp15Read s crn free = some v ∧ Cp15View s crn v := by
  rcases readable_cases h with rfl | rfl | rfl | rfl | rfl | rfl
  · exact ⟨_, rfl, by constructor <;> simp⟩
  · exact ⟨_, rfl, by constructor <;> simp [controlOf_controlWord]⟩
  · refine ⟨_, rfl, ?_⟩
    constructor <;> simp
    exact BitVec.extractLsb'_append_eq_left
  · exact ⟨_, rfl, by constructor <;> simp⟩
  · refine ⟨_, rfl, ?_⟩
    constructor <;> simp only [BitVec.reduceEq, false_implies, forall_const]
    exact fsrWord_fields _ _ _
  · exact ⟨_, rfl, by constructor <;> simp⟩

/-- A register that is write-only or reserved is not read (10_state.md R61, R70, R71). -/
theorem cp15Read_none (s : State) {crn : BitVec 4} (free : Word) (h : crn.toNat ∉ [0, 1, 2, 3, 5, 6]) :
    cp15Read s crn free = none := by
  unfold cp15Read
  split <;> simp_all

/-- Every mode but User is privileged (10_state.md R44). -/
theorem State.privileged_of_ne {s : State} (h : s.cpsr.mode ≠ .usr) : s.privileged = true := by
  simpa [State.privileged, Mode.privileged] using h

/-- MRC in a privileged mode (49_coprocessor_undefined.md R391). -/
theorem exec_mrc_some {c : Cond} {op1 op2 : BitVec 3} {crn crm : BitVec 4} {rd : Reg} {s : State} {v : Word}
    (hc : s.cpsr.flags.pass c = true) (hm : s.cpsr.mode ≠ .usr) (hv : cp15Read s crn s.draw = some v) :
    exec (.mrc c op1 crn rd op2 crm) s = writeMrc rd v s.drawn := by
  simp only [exec, execMrc, whenPassed_of_pass hc, State.privileged_of_ne hm, hv, if_true]

theorem exec_mrc_none {c : Cond} {op1 op2 : BitVec 3} {crn crm : BitVec 4} {rd : Reg} {s : State}
    (hc : s.cpsr.flags.pass c = true) (hm : s.cpsr.mode ≠ .usr) (hv : cp15Read s crn s.draw = none) :
    exec (.mrc c op1 crn rd op2 crm) s = .refused .cp15Register := by
  simp only [exec, execMrc, whenPassed_of_pass hc, State.privileged_of_ne hm, hv, if_true]

/-- MRC to a register other than R15: the register and the next instruction, nothing else (49_coprocessor_undefined.md
R391). -/
theorem writeMrc_reg {s : State} {rd : Reg} (v : Word) (hpc : s.pc ≠ 0xFFFFFFFC#32) (hrd : rd ≠ 15#4) :
    ∃ t, writeMrc rd v s.drawn = .next t ∧ t.readReg rd = v ∧ t.pc = s.pc + 4#32 ∧ RegsKept [rd] s t ∧
      t.cpsr.flags = s.cpsr.flags ∧ AllKept s t := by
  have hpc' : (s.drawn.setReg rd v).pc = s.pc := State.setReg_pc_of_ne _ v hrd
  have hregs : RegsKept [rd] s (s.drawn.setReg rd v) :=
    RegsKept.setReg (s := s) (t := s.drawn) (fun _ _ => rfl) rfl v hrd (List.mem_singleton_self rd)
  refine ⟨(s.drawn.setReg rd v).next4, ?_, ?_, ?_, hregs, ?_, ?_⟩
  · simp only [writeMrc, isPc, beq_iff_eq, hrd, if_false]
    exact advance_of_ne (by rw [hpc']; exact hpc)
  · rw [State.next4, State.readReg_withPc _ _ hrd, State.readReg_setReg_same _ v hrd]
  · rw [State.next4, State.withPc_pc, hpc']
  · simp [State.next4]
  · apply AllKept.of_eq <;> simp [State.next4]

/-- MRC to R15: the flags and the next instruction, nothing else (49_coprocessor_undefined.md R396). -/
theorem writeMrc_flags {s : State} (v : Word) (hpc : s.pc ≠ 0xFFFFFFFC#32) :
    ∃ t, writeMrc 15#4 v s.drawn = .next t ∧ t.cpsr.flags = Flags.ofWord v ∧ t.pc = s.pc + 4#32 ∧ RegsKept [] s t ∧
      AllKept s t := by
  refine ⟨(s.drawn.withFlags (Flags.ofWord v)).next4, advance_of_ne hpc, rfl, rfl, fun _ _ => rfl, ?_⟩
  apply AllKept.of_eq <;> rfl

/-- Bits 31:28 of a word whose bits 31:14 are the table base do not depend on the others (10_state.md R64). -/
theorem flagsAre_of_ttb {v : Word} {ttb : BitVec 18} (h : v.extractLsb' 14 18 = ttb) :
    FlagsAre (Flags.ofWord v) (ttb ++ 0#14) := by
  subst h
  simp only [FlagsAre, Flags.ofWord, BitVec.getLsbD_append]
  simp

/-- Settles O48, by the register that is read (`cp15Read_some`) and where its value goes. -/
theorem mrcReads : Obligations.MrcReads := by
  intro c op1 op2 crn crm rd s ⟨hc, hpc⟩ hm
  refine ⟨fun hcrn hrd => ?_, fun hcrn hrd => ?_, fun hcrn => exec_mrc_none hc hm (cp15Read_none s _ hcrn)⟩
  · obtain ⟨v, hv, hview⟩ := cp15Read_some s s.draw hcrn
    obtain ⟨t, ht, rfl, hnext, hregs, hflags, hkept⟩ := writeMrc_reg v hpc hrd
    exact ⟨t, (exec_mrc_some hc hm hv).trans ht, hview.id, hview.control, hview.ttb, hview.dac, hview.fsr, hview.far,
      hnext, hregs, hflags, hkept⟩
  · obtain ⟨v, hv, hview⟩ := cp15Read_some s s.draw hcrn
    obtain ⟨t, ht, hflags, hnext, hregs, hkept⟩ := writeMrc_flags v hpc
    have hare : ∀ w, v = w → FlagsAre t.cpsr.flags w := by
      rintro w rfl
      rw [hflags]
      exact ⟨rfl, rfl, rfl, rfl⟩
    exact ⟨t, hrd ▸ (exec_mrc_some hc hm hv).trans ht, fun h => hare _ (hview.id h), fun h => hare _ (hview.dac h),
      fun h => hflags ▸ flagsAre_of_ttb (hview.ttb h), fun h => hare _ (hview.far h), hnext, hregs, hkept⟩

end Sys2Proof.Machine
end

section
/-! PROOF. O49: what MCR writes to CP15 (10_state.md R61 to R71; 49_coprocessor_undefined.md R392). -/

namespace Sys2Proof.Machine

/-- MCR to CP15 with a register other than R15, in a privileged mode (49_coprocessor_undefined.md R392). -/
theorem exec_mcr {c : Cond} {op1 op2 : BitVec 3} {crn crm : BitVec 4} {rd : Reg} {s : State}
    (hc : s.cpsr.flags.pass c = true) (hm : s.cpsr.mode ≠ .usr) (hrd : rd ≠ 15#4) :
    exec (.mcr c op1 crn rd op2 crm) s = cp15Write crn crm op2 (s.readReg rd) s := by
  have hok : (!isPc rd) = true := by simpa [isPc] using hrd
  simp only [exec, execMcr, whenPassed_of_pass hc, State.privileged_of_ne hm, if_true, allowing_of_ok hok]

theorem exec_mcr_pc {c : Cond} {op1 op2 : BitVec 3} {crn crm : BitVec 4} {s : State}
    (hc : s.cpsr.flags.pass c = true) (hm : s.cpsr.mode ≠ .usr) :
    exec (.mcr c op1 crn 15#4 op2 crm) s = .refused .r15Operand := by
  simp only [exec, execMcr, whenPassed_of_pass hc, State.privileged_of_ne hm, if_true, allowing_of_not (ok := !isPc 15#4) rfl]

/-- The registers of CP15 that can be written (10_state.md R61). -/
theorem writable_cases {crn : BitVec 4} (h : crn.toNat ∈ [1, 2, 3, 5, 6]) :
    crn = 1#4 ∨ crn = 2#4 ∨ crn = 3#4 ∨ crn = 5#4 ∨ crn = 6#4 := by
  revert crn; decide

/-- The register file of CP15 after a write of `v` to register `crn` (10_state.md R63 to R67). -/
def cp15After (crn : BitVec 4) (v : Word) (x : Cp15) : Cp15 where
  control := if crn = 1#4 then controlOf v else x.control
  ttb := if crn = 2#4 then v.extractLsb' 14 18 else x.ttb
  dac := if crn = 3#4 then v else x.dac
  fsrStatus := if crn = 5#4 then v.extractLsb' 0 4 else x.fsrStatus
  fsrDomain := if crn = 5#4 then v.extractLsb' 4 4 else x.fsrDomain
  far := if crn = 6#4 then v else x.far
  cacheLockdown := x.cacheLockdown
  tlbLockdown := x.tlbLockdown
  testClock := x.testClock

/-- A write of `v` to register `crn` of CP15 changes the mapping: it turns the MMU on or off, or with the MMU on moves the
table base (48_swap_swi_imb.md R383; 70_reset_and_hazards.md R505). -/
def WriteRemaps (crn : BitVec 4) (v : Word) (x : Cp15) : Prop :=
  crn = 1#4 ∧ v.getLsbD 0 ≠ x.control.m ∨ crn = 2#4 ∧ x.control.m = true ∧ v.extractLsb' 14 18 ≠ x.ttb

/-- A write of a register, as one rule (49_coprocessor_undefined.md R392). -/
theorem cp15Write_register {crn : BitVec 4} (crm : BitVec 4) (op2 : BitVec 3) (v : Word) (s : State)
    (h : crn.toNat ∈ [1, 2, 3, 5, 6]) :
    ∃ b, (b = true ↔ WriteRemaps crn v s.cp15) ∧
      cp15Write crn crm op2 v s = advance ((s.remapped b).withCp15 (cp15After crn v s.cp15)) := by
  rcases writable_cases h with rfl | rfl | rfl | rfl | rfl
  · exact ⟨_, by simp [WriteRemaps, controlOf], rfl⟩
  · exact ⟨_, by simp [WriteRemaps], rfl⟩
  all_goals exact ⟨false, by simp [WriteRemaps], rfl⟩

theorem cp15Write_refused {crn : BitVec 4} (crm : BitVec 4) (op2 : BitVec 3) (v : Word) (s : State)
    (h : crn.toNat ∉ [1, 2, 3, 5, 6, 7, 8]) : cp15Write crn crm op2 v s = .refused .cp15Register := by
  unfold cp15Write
  split <;> simp_all

/-- A cache operation, where the platform has it, only moves on (10_state.md R68; 20_memory.md R110). -/
theorem cacheOp_of_mem {crm : BitVec 4} {op2 : BitVec 3} {s : State} (h : { crm := crm, op2 := op2 } ∈ s.plat.c7Ops) :
    cacheOp crm op2 s = advance s := by
  simp [cacheOp, h]

theorem cacheOp_of_not_mem {crm : BitVec 4} {op2 : BitVec 3} {s : State}
    (h : { crm := crm, op2 := op2 } ∉ s.plat.c7Ops) : cacheOp crm op2 s = .refused .cp15Operation := by
  simp [cacheOp, h]

/-- The translations that a TLB operation leaves (10_state.md R69). -/
def tlbAfter (op : TlbOp) (v : Word) (tlb : List TlbEntry) : List TlbEntry :=
  match op with
  | .whole => []
  | .entry => tlb.filter fun e => !e.covers v

/-- A TLB operation, where the platform has it (10_state.md R69). -/
theorem tlbOp_of_find {crm : BitVec 4} {op2 : BitVec 3} (v : Word) {s : State} {x : C8Op}
    (h : s.plat.c8Ops.find? (fun y => y.crm == crm && y.op2 == op2) = some x) :
    tlbOp crm op2 v s = advance ((s.remapped s.cp15.control.m).withTlb (tlbAfter x.op v s.tlb)) := by
  unfold tlbOp
  rw [h]
  cases hx : x.op <;> simp [hx, tlbAfter]

theorem tlbOp_refused {crm : BitVec 4} {op2 : BitVec 3} (v : Word) {s : State}
    (h : ∀ x ∈ s.plat.c8Ops, ¬ (x.crm = crm ∧ x.op2 = op2)) : tlbOp crm op2 v s = .refused .cp15Operation := by
  have hnone : s.plat.c8Ops.find? (fun y => y.crm == crm && y.op2 == op2) = none := by
    simpa [List.find?_eq_none] using h
  unfold tlbOp
  rw [hnone]

/-- Settles O49, by the register that is written or the operation that is run. -/
theorem mcrWrites : Obligations.McrWrites := by
  rintro c op1 op2 crn crm rd s ⟨hc, hpc⟩ hm i v rfl rfl
  refine ⟨by rintro rfl; exact exec_mcr_pc hc hm, fun hrd => ?_⟩
  rw [exec_mcr hc hm hrd]
  refine ⟨fun hcrn => ?_, ?_, ?_, fun hcrn => cp15Write_refused _ _ _ _ hcrn⟩
  · obtain ⟨b, hb, hw⟩ := cp15Write_register crm op2 (s.readReg rd) s hcrn
    rw [State.remapped_eq] at hw
    exact ⟨_, hw.trans (advance_of_ne hpc), rfl, rfl, rfl, rfl, rfl, rfl, if_congr hb rfl rfl, rfl, rfl, rfl, rfl,
      fun _ _ => rfl, rfl, rfl, ⟨⟨rfl, rfl, rfl⟩, rfl, rfl⟩, fun _ => rfl, rfl⟩
  · rintro rfl
    exact ⟨fun h => (cacheOp_of_mem h).trans (advance_of_ne hpc), cacheOp_of_not_mem⟩
  · rintro rfl
    refine ⟨tlbOp_refused _, fun x hx => ?_⟩
    have ht := tlbOp_of_find (s.readReg rd) hx
    rw [State.remapped_eq] at ht
    refine ⟨_, ht.trans (advance_of_ne hpc), fun hop => ?_, fun hop e => ?_, ?_, rfl, fun _ _ => rfl, rfl,
      ⟨⟨rfl, rfl, rfl, rfl, rfl⟩, ⟨rfl, rfl, rfl⟩, rfl⟩, fun _ => rfl, rfl⟩
    · simp [State.next4, hop, tlbAfter]
    · simp [State.next4, hop, tlbAfter]
    · cases hmmu : s.cp15.control.m <;> simp [State.next4, State.mapping, hmmu]

end Sys2Proof.Machine
end

section
/-! PROOF. O55: an instruction at the last address that would go on to the next has none (10_state.md R34). First what each
form does once its operands and accesses are accepted, then that its pc is still the instruction's. -/

namespace Sys2Proof.Machine

/-! ### The last address -/

/-- There is no instruction after the one at 0xFFFFFFFC (10_state.md R34). -/
theorem advance_last {s : State} (h : s.pc = 0xFFFFFFFC#32) : advance s = .refused .noSuccessor := by
  simp [advance, h]

theorem reach_pc {kind : AccessKind} {priv : Bool} {n : Nat} {va : Word} {s t : State} {r : Reached}
    (h : reach kind priv n va s = .ok r t) : t.pc = s.pc := by
  have hw := Within.reach kind priv n va s
  rw [h] at hw
  exact hw.1.pc

@[simp] theorem State.stored_pc (s : State) (r : Reached) (m : Memory) : (s.stored r m).pc = s.pc := by
  rw [State.stored_eq]; rfl

theorem State.writeBack_pc (s : State) {ix : Indexing} {rn : Reg} (a : Word) (h : writesBack ix = true → rn ≠ 15#4) :
    (s.writeBack ix rn a).pc = s.pc := by
  obtain ⟨hw, he⟩ | ⟨-, he⟩ := State.writeBack_cases s ix rn a
  · rw [he, State.setReg_pc_of_ne _ _ (h hw)]
  · rw [he]

/-- A transfer that writes back has a base other than R15 (45_single_data_transfer.md R293 a). -/
theorem base_ne_of_baseOk {ix : Indexing} {rn rd : Reg} (h : baseOk ix rn rd = true) (hw : writesBack ix = true) :
    rn ≠ 15#4 := by
  simp [baseOk, hw, isPc] at h
  exact h.1

/-- An address is misaligned where bits 1:0 are not zero; with alignment checking on the address here is not. -/
theorem misalignedWord_and_eq_false {a : Word} {check : Bool} (h : check = true → a.extractLsb' 0 2 = 0#2) :
    (misalignedWord a && check) = false := by
  cases check
  · simp
  · simp [misalignedWord, h rfl]

/-! #### Accesses that go through -/

section
variable {kind : AccessKind} {priv : Bool} {a : Word} {s u : State} {r : Reached}

theorem loadWord_of_reach (h : reach kind priv 4 (wordAligned a) s = .ok r u) :
    loadWord kind priv a s = .ok (u.mem.readWord (wordCell r.pa)) u := by
  simp [loadWord, h, Access.bind]

theorem loadHalf_of_reach (h : reach .read priv 2 a s = .ok r u) :
    loadHalf priv a s = .ok (u.mem.readHalf (halfCell u.cp15.control.b r.pa)) u := by
  simp [loadHalf, h, Access.bind]

theorem loadByte_of_reach (h : reach kind priv 1 a s = .ok r u) :
    loadByte kind priv a s = .ok (u.mem.read (byteCell u.cp15.control.b r.pa)) u := by
  simp [loadByte, h, Access.bind]

theorem storeWord_of_reach (v : Word) (h : reach .write priv 4 (wordAligned a) s = .ok r u) :
    storeWord priv a v s = .ok () (u.stored r (u.mem.writeWord (wordCell r.pa) v)) := by
  simp [storeWord, h, Access.bind]

theorem storeHalf_of_reach (v : BitVec 16) (h : reach .write priv 2 a s = .ok r u) :
    storeHalf priv a v s = .ok () (u.stored r (u.mem.writeHalf (halfCell u.cp15.control.b r.pa) v)) := by
  simp [storeHalf, h, Access.bind]

theorem storeByte_of_reach (v : Byte) (h : reach .write priv 1 a s = .ok r u) :
    storeByte priv a v s = .ok () (u.stored r (u.mem.write (byteCell u.cp15.control.b r.pa) v)) := by
  simp [storeByte, h, Access.bind]

end

/-! #### Single transfers -/

/-- What a single transfer does once its condition and operands are accepted (45_single_data_transfer.md R295 to R304). -/
def singleEffect (k : SingleKind) (priv : Bool) (ix : Indexing) (rn rd : Reg) (offset : Word) (s : State) : Result :=
  match k with
  | .ldr | .ldrt => transferLoadWord priv ix rn rd offset s
  | .ldrb | .ldrbt => transferLoadByte priv ix rn rd offset s
  | .str | .strt => transferStoreWord priv ix rn rd offset s
  | .strb | .strbt => transferStoreByte priv ix rn rd offset s

theorem exec_single (k : SingleKind) (o : SingleOffset) {c : Cond} {ix : Indexing} {rn rd : Reg} {s : State}
    (hc : s.cpsr.flags.pass c = true) (hok : singleOk k o ix rn rd = true) :
    exec (singleInstr k o c ix rn rd) s = singleEffect k (k.priv s) (k.indexing ix) rn rd (o.value s) s := by
  cases o with
  | imm off =>
    have hok : singleImmOk (k.translate || k.byte) (k.indexing ix) rn rd = true := (Bool.and_true _).symm.trans hok
    cases k <;> exact (whenPassed_of_pass hc).trans (allowing_of_ok hok)
  | reg op => cases k <;> exact (whenPassed_of_pass hc).trans (allowing_of_ok hok)

section
variable {priv : Bool} {ix : Indexing} {rn rd : Reg} {offset : Word} {s u : State} {r : Reached}

theorem transferLoadWord_last (hpc : s.pc = 0xFFFFFFFC#32) (hb : writesBack ix = true → rn ≠ 15#4) (hrd : rd ≠ 15#4)
    (ha : s.cp15.control.a = true → (transferAddr ix (s.readReg rn) offset).extractLsb' 0 2 = 0#2)
    (hr : reach .read priv 4 (wordAligned (transferAddr ix (s.readReg rn) offset)) s = .ok r u) :
    transferLoadWord priv ix rn rd offset s = .refused .noSuccessor := by
  have hd : isPc rd = false := by simpa [isPc] using hrd
  simp only [transferLoadWord, misalignedWord_and_eq_false ha, hd, Bool.and_false, Bool.false_eq_true, if_false]
  rw [Access.run_ok (loadWord_of_reach hr)]
  exact advance_last (by rw [State.setReg_pc_of_ne _ _ hrd, State.writeBack_pc _ _ hb, reach_pc hr, hpc])

theorem transferLoadByte_last (hpc : s.pc = 0xFFFFFFFC#32) (hb : writesBack ix = true → rn ≠ 15#4) (hrd : rd ≠ 15#4)
    (hr : reach .read priv 1 (transferAddr ix (s.readReg rn) offset) s = .ok r u) :
    transferLoadByte priv ix rn rd offset s = .refused .noSuccessor := by
  rw [transferLoadByte, Access.run_ok (loadByte_of_reach hr)]
  exact advance_last (by rw [State.setReg_pc_of_ne _ _ hrd, State.writeBack_pc _ _ hb, reach_pc hr, hpc])

theorem transferStoreWord_last (hpc : s.pc = 0xFFFFFFFC#32) (hb : writesBack ix = true → rn ≠ 15#4)
    (ha : s.cp15.control.a = true → (transferAddr ix (s.readReg rn) offset).extractLsb' 0 2 = 0#2)
    (hr : reach .write priv 4 (wordAligned (transferAddr ix (s.readReg rn) offset)) s = .ok r u) :
    transferStoreWord priv ix rn rd offset s = .refused .noSuccessor := by
  simp only [transferStoreWord, misalignedWord_and_eq_false ha, Bool.false_eq_true, if_false]
  rw [Access.run_ok (storeWord_of_reach _ hr)]
  exact advance_last (by rw [State.writeBack_pc _ _ hb, State.stored_pc, reach_pc hr, hpc])

theorem transferStoreByte_last (hpc : s.pc = 0xFFFFFFFC#32) (hb : writesBack ix = true → rn ≠ 15#4)
    (hr : reach .write priv 1 (transferAddr ix (s.readReg rn) offset) s = .ok r u) :
    transferStoreByte priv ix rn rd offset s = .refused .noSuccessor := by
  rw [transferStoreByte, Access.run_ok (storeByte_of_reach _ hr)]
  exact advance_last (by rw [State.writeBack_pc _ _ hb, State.stored_pc, reach_pc hr, hpc])

end

/-- A single transfer (but a load of R15) at the last address, which elsewhere completes, is refused (10_state.md R34). -/
theorem single_last {k : SingleKind} {o : SingleOffset} {c : Cond} {ix : Indexing} {rn rd : Reg} {s u : State} {r : Reached}
    (hc : s.cpsr.flags.pass c = true) (hpc : s.pc = 0xFFFFFFFC#32) (hok : singleOk k o ix rn rd = true)
    (hldr : k = .ldr → rd ≠ 15#4)
    (ha : k.byte = false → s.cp15.control.a = true → (singleAddr k o ix rn s).extractLsb' 0 2 = 0#2)
    (hr : reach (if k.load then .read else .write) (k.priv s) (if k.byte then 1 else 4)
      (if k.byte then singleAddr k o ix rn s else wordAligned (singleAddr k o ix rn s)) s = .ok r u) :
    exec (singleInstr k o c ix rn rd) s = .refused .noSuccessor := by
  rw [exec_single k o hc hok]
  simp only [singleOk, Bool.and_eq_true] at hok
  obtain ⟨⟨hbase, hnopc⟩, -⟩ := hok
  have hb := base_ne_of_baseOk hbase
  have hrd : (k.translate || k.byte) = true → rd ≠ 15#4 := by
    rintro h rfl
    simp [h, isPc] at hnopc
  cases k with
  | ldr => exact transferLoadWord_last hpc hb (hldr rfl) (ha rfl) hr
  | ldrt => exact transferLoadWord_last hpc hb (hrd rfl) (ha rfl) hr
  | ldrb | ldrbt => exact transferLoadByte_last hpc hb (hrd rfl) hr
  | str | strt => exact transferStoreWord_last hpc hb (ha rfl) hr
  | strb | strbt => exact transferStoreByte_last hpc hb hr

/-! #### Halfword transfers and swaps -/

/-- What a halfword transfer does once its condition and operands are accepted (46_halfword_signed_transfer.md R325 to
R328). -/
def halfEffect (k : HalfKind) (ix : Indexing) (rn rd : Reg) (offset : Word) (s : State) : Result :=
  match k with
  | .strh => transferStoreHalf ix rn rd offset s
  | .ldrh => transferLoadHalf (BitVec.setWidth 32) ix rn rd offset s
  | .ldrsb => transferLoadSignedByte ix rn rd offset s
  | .ldrsh => transferLoadHalf (BitVec.signExtend 32) ix rn rd offset s

theorem exec_half (k : HalfKind) (o : HalfOffset) {c : Cond} {ix : Indexing} {rn rd : Reg} {s : State}
    (hc : s.cpsr.flags.pass c = true) (hok : halfOk o ix rn rd = true) :
    exec (halfInstr k o c ix rn rd) s = halfEffect k ix rn rd (o.value s) s := by
  cases o <;> cases k <;> exact (whenPassed_of_pass hc).trans (allowing_of_ok hok)

/-- The operands of a halfword transfer that is accepted (46_halfword_signed_transfer.md R323 b, d). -/
theorem halfOk_ne {o : HalfOffset} {ix : Indexing} {rn rd : Reg} (h : halfOk o ix rn rd = true) :
    (writesBack ix = true → rn ≠ 15#4) ∧ rd ≠ 15#4 := by
  have himm : halfImmOk ix rn rd = true := by
    cases o with
    | imm off => exact h
    | reg rm => exact (Bool.and_eq_true _ _ ▸ h : _ ∧ _).1
  simp only [halfImmOk, Bool.and_eq_true] at himm
  obtain ⟨⟨-, hbase⟩, hrd⟩ := himm
  exact ⟨base_ne_of_baseOk hbase, by simpa [isPc] using hrd⟩

theorem whenEven_of_even {a : Word} {s : State} {k : Result} (h : a.getLsbD 0 = false) : whenEven a s k = k := by
  simp only [whenEven, misalignedHalf, h, Bool.false_eq_true, if_false]

section
variable {ix : Indexing} {rn rd : Reg} {offset : Word} {s u : State} {r : Reached}

theorem transferLoadHalf_last (widen : BitVec 16 → Word) (hpc : s.pc = 0xFFFFFFFC#32)
    (hb : writesBack ix = true → rn ≠ 15#4) (hrd : rd ≠ 15#4)
    (ha : (transferAddr ix (s.readReg rn) offset).getLsbD 0 = false)
    (hr : reach .read s.privileged 2 (transferAddr ix (s.readReg rn) offset) s = .ok r u) :
    transferLoadHalf widen ix rn rd offset s = .refused .noSuccessor := by
  rw [transferLoadHalf, whenEven_of_even ha, Access.run_ok (loadHalf_of_reach hr)]
  exact advance_last (by rw [State.setReg_pc_of_ne _ _ hrd, State.writeBack_pc _ _ hb, reach_pc hr, hpc])

theorem transferLoadSignedByte_last (hpc : s.pc = 0xFFFFFFFC#32) (hb : writesBack ix = true → rn ≠ 15#4)
    (hrd : rd ≠ 15#4) (hr : reach .read s.privileged 1 (transferAddr ix (s.readReg rn) offset) s = .ok r u) :
    transferLoadSignedByte ix rn rd offset s = .refused .noSuccessor := by
  rw [transferLoadSignedByte, Access.run_ok (loadByte_of_reach hr)]
  exact advance_last (by rw [State.setReg_pc_of_ne _ _ hrd, State.writeBack_pc _ _ hb, reach_pc hr, hpc])

theorem transferStoreHalf_last (hpc : s.pc = 0xFFFFFFFC#32) (hb : writesBack ix = true → rn ≠ 15#4)
    (ha : (transferAddr ix (s.readReg rn) offset).getLsbD 0 = false)
    (hr : reach .write s.privileged 2 (transferAddr ix (s.readReg rn) offset) s = .ok r u) :
    transferStoreHalf ix rn rd offset s = .refused .noSuccessor := by
  rw [transferStoreHalf, whenEven_of_even ha, Access.run_ok (storeHalf_of_reach _ hr)]
  exact advance_last (by rw [State.writeBack_pc _ _ hb, State.stored_pc, reach_pc hr, hpc])

end

/-- A halfword transfer at the last address, which elsewhere completes, is refused (10_state.md R34). -/
theorem half_last {k : HalfKind} {o : HalfOffset} {c : Cond} {ix : Indexing} {rn rd : Reg} {s u : State} {r : Reached}
    (hc : s.cpsr.flags.pass c = true) (hpc : s.pc = 0xFFFFFFFC#32) (hok : halfOk o ix rn rd = true)
    (ha : k = .ldrsb ∨ (halfAddr o ix rn s).getLsbD 0 = false)
    (hr : reach (if k = .strh then .write else .read) s.privileged (if k = .ldrsb then 1 else 2) (halfAddr o ix rn s) s =
      .ok r u) :
    exec (halfInstr k o c ix rn rd) s = .refused .noSuccessor := by
  rw [exec_half k o hc hok]
  obtain ⟨hb, hrd⟩ := halfOk_ne hok
  cases k with
  | strh => exact transferStoreHalf_last hpc hb (ha.resolve_left nofun) hr
  | ldrh => exact transferLoadHalf_last _ hpc hb hrd (ha.resolve_left nofun) hr
  | ldrsb => exact transferLoadSignedByte_last hpc hb hrd hr
  | ldrsh => exact transferLoadHalf_last _ hpc hb hrd (ha.resolve_left nofun) hr

/-- The destination of a swap that is accepted (48_swap_swi_imb.md R370). -/
theorem swapOk_ne {rn rd rm : Reg} (h : swapOk rn rd rm = true) : rd ≠ 15#4 := by
  rintro rfl
  simp [swapOk, isPc] at h

section
variable {c : Cond} {rn rd rm : Reg} {s u v : State} {r q : Reached}

/-- A word swap at the last address, which elsewhere completes, is refused (10_state.md R34). -/
theorem swp_last (hc : s.cpsr.flags.pass c = true) (hpc : s.pc = 0xFFFFFFFC#32) (hok : swapOk rn rd rm = true)
    (ha : s.cp15.control.a = true → (s.readReg rn).extractLsb' 0 2 = 0#2)
    (hr : reach .lockedRead s.privileged 4 (wordAligned (s.readReg rn)) s = .ok r u)
    (hw : reach .write s.privileged 4 (wordAligned (s.readReg rn)) u = .ok q v) :
    exec (.swp c rn rd rm) s = .refused .noSuccessor := by
  refine ((whenPassed_of_pass hc).trans (allowing_of_ok hok)).trans ?_
  simp only [swapWord, misalignedWord_and_eq_false ha, Bool.false_eq_true, if_false]
  rw [Access.run_ok (loadWord_of_reach hr), Access.run_ok (storeWord_of_reach _ hw)]
  exact advance_last (by rw [State.setReg_pc_of_ne _ _ (swapOk_ne hok), State.stored_pc, reach_pc hw, reach_pc hr, hpc])

/-- A byte swap at the last address, which elsewhere completes, is refused (10_state.md R34). -/
theorem swpb_last (hc : s.cpsr.flags.pass c = true) (hpc : s.pc = 0xFFFFFFFC#32) (hok : swapOk rn rd rm = true)
    (hr : reach .lockedRead s.privileged 1 (s.readReg rn) s = .ok r u)
    (hw : reach .write s.privileged 1 (s.readReg rn) u = .ok q v) :
    exec (.swpb c rn rd rm) s = .refused .noSuccessor := by
  refine ((whenPassed_of_pass hc).trans (allowing_of_ok hok)).trans ?_
  rw [swapByte, Access.run_ok (loadByte_of_reach hr), Access.run_ok (storeByte_of_reach _ hw)]
  exact advance_last (by rw [State.setReg_pc_of_ne _ _ (swapOk_ne hok), State.stored_pc, reach_pc hw, reach_pc hr, hpc])

end

/-! #### Block transfers -/

theorem SameButRegs.pc {s t : State} (h : SameButRegs s t) : t.pc = s.pc := by rw [h]; rfl

theorem SameButStores.pc {s t : State} (h : SameButStores s t) : t.pc = s.pc := by rw [h]; rfl

theorem blockWriteBack_pc (bm : BlockMode) {rn : Reg} (list : BitVec 16) (base : Word) (s : State) (h : rn ≠ 15#4) :
    (blockWriteBack bm rn list base s).pc = s.pc := by
  obtain ⟨p, hp⟩ := Mode.bank_some s.cpsr.mode rn h
  exact (blockWriteBack_all bm list base s hp).1.pc

theorem whenBaseAligned_of_word {base start : Word} {s : State} {k : Result} (loadsPc : Bool)
    (h : s.cp15.control.a = true → base.extractLsb' 0 2 = 0#2) (hl : loadsPc = false) :
    whenBaseAligned loadsPc base start s k = k := by
  unfold whenBaseAligned
  cases ha : s.cp15.control.a
  · simp [hl]
  · simp [misalignedWord, h ha]

section
variable {c : Cond} {bm : BlockMode} {rn : Reg} {list : BitVec 16} {s u : State}

/-- An LDM without R15 at the last address, which elsewhere completes, is refused (10_state.md R34). -/
theorem ldm_last {vs : List Loaded} (hc : s.cpsr.flags.pass c = true) (hpc : s.pc = 0xFFFFFFFC#32)
    (hok : loadBlockOk bm rn list = true) (hmode : blockModeOk bm s.cpsr.mode = true)
    (hfits : blockFits (blockStart bm (s.readReg rn) list) list = true)
    (ha : s.cp15.control.a = true → (s.readReg rn).extractLsb' 0 2 = 0#2) (hlist : inList list 15#4 = false)
    (hr : readBlock (regsOf list) (blockStart bm (s.readReg rn) list) s = .done vs u) :
    exec (.ldm c bm rn list) s = .refused .noSuccessor := by
  have hrn : rn ≠ 15#4 := by rintro rfl; simp [loadBlockOk, isPc] at hok
  obtain ⟨hlookup, hregs⟩ := readBlock_done hr
  have hnone : (vs.find? fun x => isPc x.reg) = none := by
    rw [List.find?_eq_none]
    intro x hx hp
    have hmem : x.reg ∈ regsOf list := hregs ▸ List.mem_map_of_mem hx
    rw [mem_regsOf, show x.reg = 15#4 by simpa [isPc] using hp, hlist] at hmem
    cases hmem
  change execLdm c bm rn list s = _
  rw [execLdm, whenPassed_of_pass hc, allowing_of_ok hok, allowing_of_ok hmode, allowing_of_ok hfits,
    whenBaseAligned_of_word _ ha hlist, loadBlock]
  simp only [hr, finishLoad, hnone]
  refine advance_last ?_
  rw [State.withBankHazard_pc, (writeLoaded_all _ _ _).1.pc, blockWriteBack_pc _ _ _ _ hrn, hlookup.pc, hpc]

/-- An STM at the last address, which elsewhere completes, is refused (10_state.md R34). -/
theorem stm_last (hc : s.cpsr.flags.pass c = true) (hpc : s.pc = 0xFFFFFFFC#32)
    (hok : storeBlockOk bm rn list = true) (hmode : blockModeOk bm s.cpsr.mode = true)
    (hfits : blockFits (blockStart bm (s.readReg rn) list) list = true)
    (ha : s.cp15.control.a = true → (s.readReg rn).extractLsb' 0 2 = 0#2)
    (hw : writeBlock (storedValues bm list s) (blockStart bm (s.readReg rn) list) s = .done () u) :
    exec (.stm c bm rn list) s = .refused .noSuccessor := by
  have hrn : rn ≠ 15#4 := by rintro rfl; simp [storeBlockOk, isPc] at hok
  change execStm c bm rn list s = _
  rw [execStm, whenPassed_of_pass hc, allowing_of_ok hok, allowing_of_ok hmode, allowing_of_ok hfits,
    whenBaseAligned_of_word _ ha rfl, storeBlock]
  simp only [hw]
  exact advance_last (by rw [blockWriteBack_pc _ _ _ _ hrn, (writeBlock_done hw).pc, hpc])

end

/-! #### Multiplies, status registers, coprocessor registers -/

section
variable {c : Cond} {s : State}

theorem writeMul_last {sf : Bool} {rd : Reg} {v : Word} (hpc : s.pc = 0xFFFFFFFC#32) (hrd : rd ≠ 15#4) :
    writeMul sf rd v s = .refused .noSuccessor := by
  unfold writeMul
  split <;> exact advance_last ((State.setReg_pc_of_ne _ _ hrd).trans hpc)

theorem writeMulLong_last {sf : Bool} {hi lo : Reg} {p : BitVec 64} (hpc : s.pc = 0xFFFFFFFC#32) (hhi : hi ≠ 15#4)
    (hlo : lo ≠ 15#4) : writeMulLong sf hi lo p s = .refused .noSuccessor := by
  refine advance_last ?_
  rw [State.setReg_pc_of_ne _ _ hhi, State.setReg_pc_of_ne _ _ hlo]
  split <;> exact hpc

theorem mrs_last {spsr : Bool} {rd : Reg} (hc : s.cpsr.flags.pass c = true) (hpc : s.pc = 0xFFFFFFFC#32)
    (hrd : rd ≠ 15#4) (hspsr : spsr = true → s.spsrNow ≠ none) : exec (.mrs c spsr rd) s = .refused .noSuccessor := by
  have hadv : ∀ v, advance (s.drawn.setReg rd v) = .refused .noSuccessor := fun v =>
    advance_last ((State.setReg_pc_of_ne _ _ hrd).trans hpc)
  change execMrs c spsr rd s = _
  rw [execMrs, whenPassed_of_pass hc, allowing_of_ok (by simpa [isPc] using hrd)]
  cases spsr with
  | false => exact hadv _
  | true =>
    obtain ⟨p, hp⟩ := Option.ne_none_iff_exists'.1 (hspsr rfl)
    simp only [hp, if_true]
    exact hadv _

theorem exec_msr {spsr : Bool} {mask : BitVec 4} {i : Instr} {v : Word} (hc : s.cpsr.flags.pass c = true)
    (h : MsrOperand c spsr mask i v s) : exec i s = msr spsr mask v s := by
  rcases h with ⟨op, rfl, rfl⟩ | ⟨rm, hrm, rfl, rfl⟩
  · exact whenPassed_of_pass hc
  · exact (whenPassed_of_pass hc).trans (allowing_of_ok (by simpa [isPc] using hrm))

theorem msr_last {spsr : Bool} {mask : BitVec 4} {v : Word} (hpc : s.pc = 0xFFFFFFFC#32)
    (hspsr : spsr = true → s.spsrNow ≠ none)
    (hcpsr : spsr = false →
      mask.getLsbD 0 = false ∨ s.cpsr.mode = .usr ∨ ∃ m, Mode.ofBits (v.extractLsb' 0 5) = some m) :
    msr spsr mask v s = .refused .noSuccessor := by
  cases spsr with
  | true =>
    obtain ⟨p, hp⟩ := Option.ne_none_iff_exists'.1 (hspsr rfl)
    simp only [msr, msrSpsr, hp, if_true]
    exact advance_last hpc
  | false =>
    change msrCpsr mask v s = _
    unfold msrCpsr
    simp only
    split
    · rename_i hcond
      obtain ⟨hmask, hpriv⟩ := Bool.and_eq_true _ _ ▸ hcond
      rcases hcpsr rfl with h | h | ⟨m, hm⟩
      · rw [h] at hmask; cases hmask
      · simp [State.privileged, Mode.privileged, h] at hpriv
      · simp only [hm]
        exact advance_last hpc
    · exact advance_last hpc

theorem mrc_last {op1 op2 : BitVec 3} {crn crm : BitVec 4} {rd : Reg} (hc : s.cpsr.flags.pass c = true)
    (hpc : s.pc = 0xFFFFFFFC#32) (hm : s.cpsr.mode ≠ .usr) (hcrn : crn.toNat ∈ [0, 1, 2, 3, 5, 6]) :
    exec (.mrc c op1 crn rd op2 crm) s = .refused .noSuccessor := by
  obtain ⟨v, hv, -⟩ := cp15Read_some s s.draw hcrn
  rw [exec_mrc_some hc hm hv, writeMrc]
  split
  · exact advance_last hpc
  · rename_i hrd
    exact advance_last ((State.setReg_pc_of_ne _ _ (by simpa [isPc] using hrd)).trans hpc)

theorem mcr_last {op1 op2 : BitVec 3} {crn crm : BitVec 4} {rd : Reg} (hc : s.cpsr.flags.pass c = true)
    (hpc : s.pc = 0xFFFFFFFC#32) (hm : s.cpsr.mode ≠ .usr) (hrd : rd ≠ 15#4)
    (hcrn : crn.toNat ∈ [1, 2, 3, 5, 6] ∨ crn = 7#4 ∧ { crm := crm, op2 := op2 } ∈ s.plat.c7Ops ∨
      crn = 8#4 ∧ ∃ x ∈ s.plat.c8Ops, x.crm = crm ∧ x.op2 = op2) :
    exec (.mcr c op1 crn rd op2 crm) s = .refused .noSuccessor := by
  rw [exec_mcr hc hm hrd]
  rcases hcrn with h | ⟨rfl, h⟩ | ⟨rfl, h⟩
  · obtain ⟨b, -, hw⟩ := cp15Write_register crm op2 (s.readReg rd) s h
    rw [hw, State.remapped_eq]
    exact advance_last hpc
  · exact (cacheOp_of_mem h).trans (advance_last hpc)
  · obtain ⟨x, hx⟩ : ∃ x, s.plat.c8Ops.find? (fun y => y.crm == crm && y.op2 == op2) = some x := by
      rw [← Option.isSome_iff_exists, List.find?_isSome]
      simpa using h
    refine (tlbOp_of_find _ hx).trans ?_
    rw [State.remapped_eq]
    exact advance_last hpc

end

/-- Settles O55: in each form the completion moves on from a state that still has the pc of the instruction, and there is
no instruction after the one at 0xFFFFFFFC. -/
theorem noSuccessor : Obligations.NoSuccessor := by
  intro c s i hc hpc h
  rcases h with ⟨k, o, ix, rn, rd, a, r, u, rfl, hok, hldr, rfl, ha, hr⟩ |
    ⟨k, o, ix, rn, rd, a, r, u, rfl, hok, rfl, ha, hr⟩ |
    ⟨rn, rd, rm, a, r, u, q, v, hok, rfl, ⟨rfl, ha, hr, hw⟩ | ⟨rfl, hr, hw⟩⟩ |
    ⟨bm, rn, list, start, u, hmode, rfl, hfits, ha, ⟨rfl, hok, hlist, vs, hr⟩ | ⟨rfl, hok, hw⟩⟩ |
    ⟨sf, rd, rn, rs, rm, hrd, hrs, hrm, hne, rfl | ⟨rfl, hrn⟩⟩ |
    ⟨sf, hi, lo, rs, rm, hhi, hlo, hrs, hrm, hne, hhm, hlm, hform⟩ |
    ⟨spsr, rd, rfl, hrd, hspsr⟩ | ⟨spsr, mask, v, hform, hspsr, hcpsr⟩ |
    ⟨hm, op1, crn, rd, op2, crm, ⟨rfl, hcrn⟩ | ⟨rfl, hrd, hcrn⟩⟩
  · exact single_last hc hpc hok hldr ha hr
  · exact half_last hc hpc hok ha hr
  · exact swp_last hc hpc hok ha hr hw
  · exact swpb_last hc hpc hok hr hw
  · exact ldm_last hc hpc hok hmode hfits ha hlist hr
  · exact stm_last hc hpc hok hmode hfits ha hw
  · have hok : mulOk rd rs rm = true := by simp [mulOk, isPc, hrd, hrs, hrm, hne]
    exact ((whenPassed_of_pass hc).trans (allowing_of_ok hok)).trans (writeMul_last hpc hrd)
  · have hok : mlaOk rd rn rs rm = true := by simp [mlaOk, mulOk, isPc, hrd, hrs, hrm, hne, hrn]
    exact ((whenPassed_of_pass hc).trans (allowing_of_ok hok)).trans (writeMul_last hpc hrd)
  · have hok : mulLongOk hi lo rs rm = true := by
      simp [mulLongOk, isPc, hhi, hlo, hrs, hrm, hne, hhm, hlm]
    rcases hform with rfl | rfl | rfl | rfl <;>
      exact ((whenPassed_of_pass hc).trans (allowing_of_ok hok)).trans (writeMulLong_last hpc hhi hlo)
  · exact mrs_last hc hpc hrd hspsr
  · rw [exec_msr hc hform]
    exact msr_last hpc hspsr hcpsr
  · exact mrc_last hc hpc hm hcrn
  · exact mcr_last hc hpc hm hrd hcrn

end Sys2Proof.Machine
end

section
/-! PROOF. O22: the byte lanes of a word (20_memory.md R82 to R86). First where the cells of an address lie in its word. -/

namespace Sys2Proof.Machine

/-- Flipping bits 1:0 of an address moves inside its word. -/
theorem xor_lane (x : Nat) {c : Nat} (hc : c < 4) : x ^^^ c = x / 4 * 4 + (x % 4 ^^^ c) := by
  have hdiv : (x ^^^ c) / 2 ^ 2 = x / 2 ^ 2 := by
    rw [Nat.xor_div_two_pow, show c / 2 ^ 2 = 0 by omega, Nat.xor_zero]
  have hmod : (x ^^^ c) % 4 = x % 4 ^^^ c :=
    (Nat.xor_mod_two_pow (n := 2)).trans (congrArg _ (Nat.mod_eq_of_lt hc))
  omega

/-- The word that holds an address (10_state.md R30). -/
theorem wordAligned_toNat (a : Word) : (wordAligned a).toNat = a.toNat / 4 * 4 := by
  have hdiv : (wordAligned a).toNat / 2 ^ 2 = a.toNat / 2 ^ 2 := by
    have hlt : a.toNat / 2 ^ 2 < 2 ^ 30 := by have := a.isLt; omega
    rw [wordAligned, BitVec.toNat_and, Nat.and_div_two_pow]
    exact (Nat.and_two_pow_sub_one_eq_mod _ 30).trans (Nat.mod_eq_of_lt hlt)
  have hmod : (wordAligned a).toNat % 2 ^ 2 = 0 := by
    rw [wordAligned, BitVec.toNat_and, Nat.and_mod_two_pow]
    exact Nat.and_zero _
  omega

/-- A half-word address is even when bit 0 is clear (20_memory.md R89). -/
theorem getLsbD_zero_eq_false_iff (a : Word) : a.getLsbD 0 = false ↔ a.toNat % 2 = 0 := by
  simp [BitVec.getLsbD, Nat.testBit_zero]

/-- The lane of a byte in its word (20_memory.md R84, R86). -/
theorem byteCell_eq (b : Bool) (a : Word) :
    byteCell b a = a.toNat / 4 * 4 + if b then 3 - a.toNat % 4 else a.toNat % 4 := by
  have hflip : ∀ k : Fin 4, k.val ^^^ 3 = 3 - k.val := by decide
  cases b with
  | false => simp only [byteCell, Bool.false_eq_true, if_false]; omega
  | true =>
    simp only [byteCell, if_true, BitVec.toNat_xor, BitVec.toNat_ofNat]
    rw [xor_lane _ (by decide)]
    exact congrArg _ (hflip ⟨a.toNat % 4, Nat.mod_lt _ (by decide)⟩)

/-- The lanes of a half-word in its word (20_memory.md R84, R86). -/
theorem halfCell_eq (b : Bool) {a : Word} (h : a.toNat % 2 = 0) :
    halfCell b a = a.toNat / 4 * 4 + if b then 2 - a.toNat % 4 else a.toNat % 4 := by
  have hflip : ∀ k : Fin 4, k.val % 2 = 0 → k.val ^^^ 2 = 2 - k.val := by decide
  cases b with
  | false => simp only [halfCell, Bool.false_eq_true, if_false]; omega
  | true =>
    simp only [halfCell, if_true, BitVec.toNat_xor, BitVec.toNat_ofNat]
    rw [xor_lane _ (by decide)]
    exact congrArg _ (hflip ⟨a.toNat % 4, Nat.mod_lt _ (by decide)⟩ (by simp only; omega))

/-- Byte lane `k` of a word is its bits `8k + 7` to `8k` (20_memory.md R82). -/
theorem Memory.extractLsb'_readWord (m : Memory) (lo : Nat) {k : Nat} (hk : k < 4) :
    (m.readWord lo).extractLsb' (8 * k) 8 = m.read (lo + k) := by
  have low : ∀ {n : Nat} (x : BitVec n) (y : Byte), (x ++ y).extractLsb' 0 8 = y := fun x y =>
    (BitVec.extractLsb'_append_eq_of_add_le (by decide)).trans BitVec.extractLsb'_eq_self
  have skip : ∀ {n : Nat} (x : BitVec n) (y : Byte) (i : Nat), (x ++ y).extractLsb' (8 + i) 8 = x.extractLsb' i 8 :=
    fun x y i => (BitVec.extractLsb'_append_eq_of_le (by omega)).trans (by rw [Nat.add_sub_cancel_left])
  match k, hk with
  | 0, _ => exact low _ _
  | 1, _ => exact (skip _ _ 0).trans (low _ _)
  | 2, _ => exact (skip _ _ 8).trans ((skip _ _ 0).trans (low _ _))
  | 3, _ => exact (skip _ _ 16).trans ((skip _ _ 8).trans ((skip _ _ 0).trans BitVec.extractLsb'_eq_self))

/-- Settles O22: with the lanes numbered from the word's first cell, byte `k` is lane `k` or lane `3 - k`. -/
theorem byteOrder : Obligations.ByteOrder := by
  intro m a ha
  have hmod : a.toNat % 4 = 0 := (extractLsb'_two_eq_zero_iff a).1 ((wordAligned_eq_self_iff a).1 ha)
  have hadd : ∀ k, k < 4 → (a + BitVec.ofNat 32 k).toNat = a.toNat + k := fun k hk => by
    rw [BitVec.toNat_add, BitVec.toNat_ofNat]; omega
  refine ⟨fun k hk => ⟨?_, ?_⟩, fun h hh => ?_⟩
  · rw [Memory.extractLsb'_readWord m _ hk]
    congr 1
    rw [byteCell_eq, hadd k hk, wordCell, if_neg Bool.false_ne_true]
    omega
  · rw [show 24 - 8 * k = 8 * (3 - k) by omega, Memory.extractLsb'_readWord m _ (by omega)]
    congr 1
    rw [byteCell_eq, hadd k hk, wordCell, if_pos rfl]
    omega
  · have hn : h.toNat = a.toNat ∨ h.toNat = a.toNat + 2 :=
      hh.imp (congrArg BitVec.toNat) fun e => (congrArg BitVec.toNat e).trans (hadd 2 (by decide))
    have hone : (h + 1#32).toNat = h.toNat + 1 := by rw [BitVec.toNat_add, BitVec.toNat_ofNat]; omega
    have heven : h.toNat % 2 = 0 := by omega
    constructor
    · rw [Memory.readHalf, halfCell_eq _ heven, byteCell_eq, byteCell_eq, hone]
      simp only [Bool.false_eq_true, if_false]
      congr 2; omega
    · rw [Memory.readHalf, halfCell_eq _ heven, byteCell_eq, byteCell_eq, hone]
      simp only [if_true]
      congr 2 <;> omega

end Sys2Proof.Machine
end

section
/-! PROOF. O23: with the MMU off an access goes to its own address (20_memory.md R90 to R92, R101). First how an access goes
on from what its translation gives, with the MMU on or off. -/

namespace Sys2Proof.Machine

section
variable {kind : AccessKind} {priv : Bool} {n : Nat} {va : Word} {s t : State}

/-- An access that is translated and that the ABORT input fails (20_memory.md R90 step 2). -/
theorem reach_of_translate_aborted {x : Translated} (h : translate kind priv va s = .ok x t)
    (ha : t.aborted x.pa n kind = true) : reach kind priv n va s = externalAbort x kind t := by
  simp only [reach, h, Access.bind, ha, if_true]

/-- An access that is translated and not aborted: what stands at the physical address decides (20_memory.md R90 step 3,
R97). -/
theorem reach_of_translate_ok {x : Translated} (h : translate kind priv va s = .ok x t)
    (ha : t.aborted x.pa n kind = false) :
    (t.kindAt x.pa n = some .ram → reach kind priv n va s = .ok { pa := x.pa, rom := false } t) ∧
    (t.kindAt x.pa n = some .rom → reach kind priv n va s = .ok { pa := x.pa, rom := true } t) ∧
    (t.kindAt x.pa n = some .device → reach kind priv n va s = .refused .deviceAccess) ∧
    (t.kindAt x.pa n = none → reach kind priv n va s = .stuck .unmapped) := by
  refine ⟨fun hk => ?_, fun hk => ?_, fun hk => ?_, fun hk => ?_⟩ <;>
    simp only [reach, h, Access.bind, ha, hk, Bool.false_eq_true, if_false]

theorem reach_of_translate_abort {f : Option FaultStatus} (h : translate kind priv va s = .abort f t) :
    reach kind priv n va s = .abort f t := by
  simp only [reach, h, Access.bind]

theorem reach_of_translate_refused {r : Refusal} (h : translate kind priv va s = .refused r) :
    reach kind priv n va s = .refused r := by
  simp only [reach, h, Access.bind]

theorem translate_mmu_off (hm : s.cp15.control.m = false) :
    translate kind priv va s = .ok { pa := va, via := none } s := by
  simp only [translate, hm, Bool.false_eq_true, if_false]

end

/-- Settles O23: the translation is the identity, and an abort has no status. -/
theorem accessWithMmuOff : Obligations.AccessWithMmuOff := by
  intro kind priv n a s hm
  have ht : translate kind priv a s = .ok { pa := a, via := none } s := translate_mmu_off hm
  refine ⟨fun ha => reach_of_translate_aborted ht ha, fun ha => ?_⟩
  obtain ⟨hram, hrom, hdevice, hnone⟩ := reach_of_translate_ok ht ha
  exact ⟨hnone, hdevice, hrom, hram⟩

end Sys2Proof.Machine
end

section
/-! PROOF. O24: where an access goes with the MMU on (20_memory.md R102 to R106, R108; 10_state.md R64, R65, R78). First the
parts of a translation, in the order of a walk: the table reads, the levels, the TLB, the checks. -/

namespace Sys2Proof.Machine

/-! ### The walk -/

theorem tableRead_of_aborted {code : BitVec 4} {d : Option (BitVec 4)} {a : Word} {s : State}
    (h : s.aborted a 4 .read = true) : tableRead code d a s = mmuFault code d s := by
  simp only [tableRead, h, if_true]

theorem tableRead_of_holds {code : BitVec 4} {d : Option (BitVec 4)} {a v : Word} {s : State} (h : TableHolds a v s) :
    tableRead code d a s = .ok v s := by
  obtain ⟨ha, hk, rfl⟩ := h
  rcases hk with hk | hk <;> simp only [tableRead, ha, hk, Bool.false_eq_true, if_false]

section
variable {va l1 : Word} {s : State}

theorem walk_of_aborted (h : s.aborted (firstLevelAddr s.cp15.ttb va) 4 .read = true) :
    walk va s = mmuFault 0b1100#4 none s := by
  simp only [walk, tableRead_of_aborted h, mmuFault, Access.bind]

/-- The first level (20_memory.md R102, R105 steps 2 and 3). -/
theorem walk_of_holds (h : TableHolds (firstLevelAddr s.cp15.ttb va) l1 s) :
    (l1.extractLsb' 0 2 = 0#2 → walk va s = mmuFault 0b0101#4 none s) ∧
    (l1.extractLsb' 0 2 = 1#2 → walk va s = walkSecond l1 va s) ∧
    (l1.extractLsb' 0 2 = 2#2 → walk va s = .ok { size := .sectionMap, va := va, l1 := l1, l2 := 0#32 } s) ∧
    (l1.extractLsb' 0 2 = 3#2 → walk va s = .refused .reservedDescriptor) := by
  refine ⟨fun hb => ?_, fun hb => ?_, fun hb => ?_, fun hb => ?_⟩ <;>
    simp only [walk, tableRead_of_holds h, Access.bind, hb] <;> rfl

theorem walkSecond_of_aborted (h : s.aborted (secondLevelAddr l1 va) 4 .read = true) :
    walkSecond l1 va s = .abort (some { status := 0b1110#4, domain := domainOf l1 }) s := by
  simp only [walkSecond, tableRead_of_aborted h, mmuFault, Access.bind]

/-- The second level (20_memory.md R103, R105 step 4). -/
theorem walkSecond_of_holds {l2 : Word} (h : TableHolds (secondLevelAddr l1 va) l2 s) :
    (l2.extractLsb' 0 2 = 0#2 →
      walkSecond l1 va s = .abort (some { status := 0b0111#4, domain := domainOf l1 }) s) ∧
    (l2.extractLsb' 0 2 = 1#2 → walkSecond l1 va s = .ok { size := .large, va := va, l1 := l1, l2 := l2 } s) ∧
    (l2.extractLsb' 0 2 = 2#2 → walkSecond l1 va s = .ok { size := .small, va := va, l1 := l1, l2 := l2 } s) ∧
    (l2.extractLsb' 0 2 = 3#2 → walkSecond l1 va s = .refused .reservedDescriptor) := by
  refine ⟨fun hb => ?_, fun hb => ?_, fun hb => ?_, fun hb => ?_⟩ <;>
    simp only [walkSecond, tableRead_of_holds h, Access.bind, hb] <;> rfl

end

/-! ### The TLB -/

section
variable {kind : AccessKind} {priv : Bool} {n : Nat} {va : Word} {s t : State}

theorem tlbLookup_of_hit {e : TlbEntry} (h : s.tlb.find? (fun x => x.covers va) = some e) : tlbLookup va s = .ok e s := by
  simp only [tlbLookup, h]

/-- An address that no cached translation maps is translated by a walk (10_state.md R78). -/
theorem tlbLookup_of_miss (h : ∀ e ∈ s.tlb, e.covers va = false) :
    tlbLookup va s = (walk va s).bind fun e u => .ok e (u.withTlb (u.tlb ++ [e])) := by
  have hnone : s.tlb.find? (fun x => x.covers va) = none := by simpa [List.find?_eq_none] using h
  simp only [tlbLookup, hnone]

theorem translate_mmu_on (hm : s.cp15.control.m = true) :
    translate kind priv va s = (tlbLookup va s).bind fun e u => checkAccess e kind priv va u := by
  simp only [translate, hm, if_true]

/-- A fault of the walk is the access's. -/
theorem reach_of_walk_abort {f : Option FaultStatus} (hm : s.cp15.control.m = true)
    (hmiss : ∀ e ∈ s.tlb, e.covers va = false) (h : walk va s = .abort f t) : reach kind priv n va s = .abort f t :=
  reach_of_translate_abort (by simp only [translate_mmu_on hm, tlbLookup_of_miss hmiss, h, Access.bind])

/-- A refusal of the walk is the access's. -/
theorem reach_of_walk_refused {r : Refusal} (hm : s.cp15.control.m = true)
    (hmiss : ∀ e ∈ s.tlb, e.covers va = false) (h : walk va s = .refused r) : reach kind priv n va s = .refused r :=
  reach_of_translate_refused (by simp only [translate_mmu_on hm, tlbLookup_of_miss hmiss, h, Access.bind])

/-! ### The checks -/

/-- The table of access permissions (20_memory.md R104). -/
theorem permits_table (ap : BitVec 2) (ctl : Control) (priv write : Bool) :
    (ap = 0b00#2 →
      (ctl.s = false → ctl.r = false → permits ap ctl priv write = some false) ∧
      (ctl.s = true → ctl.r = false → permits ap ctl priv write = some (decide (priv = true ∧ write = false))) ∧
      (ctl.s = false → ctl.r = true → permits ap ctl priv write = some (decide (write = false))) ∧
      (ctl.s = true → ctl.r = true → permits ap ctl priv write = none)) ∧
    (ap = 0b01#2 → permits ap ctl priv write = some (decide (priv = true))) ∧
    (ap = 0b10#2 → permits ap ctl priv write = some (decide (priv = true ∨ write = false))) ∧
    (ap = 0b11#2 → permits ap ctl priv write = some true) := by
  refine ⟨?_, ?_, ?_, ?_⟩
  · rintro rfl
    refine ⟨fun hs hr => ?_, fun hs hr => ?_, fun hs hr => ?_, fun hs hr => ?_⟩ <;> simp [permits, hs, hr]
  all_goals
    rintro rfl
    simp [permits]

/-- Two bits of a word from bit `i` on. -/
theorem getLsbD_shift_two (v : Word) (i : Nat) {j : Nat} (hj : j < 2) :
    ((v >>> i).extractLsb' 0 2).getLsbD j = v.getLsbD (i + j) := by
  simp [hj]

/-- The domain's two bits of c3 (10_state.md R65). -/
theorem domainAccess_getLsbD (dac : Word) (d : BitVec 4) {j : Nat} (hj : j < 2) :
    (domainAccess dac d).getLsbD j = dac.getLsbD (2 * d.toNat + j) := getLsbD_shift_two dac _ hj

/-- The access permissions of a sub-page (20_memory.md R103). -/
theorem subpageAp_eq {l2 : Word} {k ap : BitVec 2} (h : ∀ j, j < 2 → ap.getLsbD j = l2.getLsbD (4 + 2 * k.toNat + j)) :
    subpageAp l2 k = ap :=
  BitVec.eq_of_getLsbD_eq fun j hj => (getLsbD_shift_two l2 _ hj).trans (h j hj).symm

/-- A manager of the domain, and a client whom the permissions allow, goes on (20_memory.md R104). -/
theorem checkAccess_allowed {e : TlbEntry}
    (h : (domainAccess s.cp15.dac (domainOf e.l1)).toNat = 3 ∨ (domainAccess s.cp15.dac (domainOf e.l1)).toNat = 1 ∧
      permits (e.ap va) s.cp15.control priv (kind == .write) = some true) :
    checkAccess e kind priv va s = .ok { pa := e.physical va, via := some e } s := by
  rcases h with h | ⟨h, hp⟩
  · simp only [checkAccess, h]
  · simp only [checkAccess, h, hp]

/-- A client whom the permissions refuse, or do not speak of (20_memory.md R104, R105 step 6). -/
theorem checkAccess_client {e : TlbEntry} (h : (domainAccess s.cp15.dac (domainOf e.l1)).toNat = 1) :
    (permits (e.ap va) s.cp15.control priv (kind == .write) = some false →
      checkAccess e kind priv va s =
        .abort (some { status := if e.page then 0b1111#4 else 0b1101#4, domain := domainOf e.l1 }) s) ∧
    (permits (e.ap va) s.cp15.control priv (kind == .write) = none →
      checkAccess e kind priv va s = .refused .reservedPermission) := by
  constructor <;> intro hp <;> simp only [checkAccess, h, hp, mmuFault]

/-- One who is neither (20_memory.md R105 step 5). -/
theorem checkAccess_stranger {e : TlbEntry} (h : (domainAccess s.cp15.dac (domainOf e.l1)).toNat = 0 ∨
      (domainAccess s.cp15.dac (domainOf e.l1)).toNat = 2) :
    checkAccess e kind priv va s =
      .abort (some { status := if e.page then 0b1011#4 else 0b1001#4, domain := domainOf e.l1 }) s := by
  rcases h with h | h <;> simp only [checkAccess, h, mmuFault]

/-- Which codes an external abort can have: that of a line fetch only for a plain read with the cache on (20_memory.md
R106; log 14). -/
theorem externalCode_lineFetch (e : TlbEntry) (kind : AccessKind) (s : State) (page : Bool) :
    (externalCode (lineFetch e kind s) page = (if page then 0b1010#4 else 0b1000#4) ∨
      externalCode (lineFetch e kind s) page = (if page then 0b0110#4 else 0b0100#4)) ∧
    (kind ≠ .read ∨ s.cp15.control.c = false →
      externalCode (lineFetch e kind s) page = if page then 0b1010#4 else 0b1000#4) := by
  constructor
  · cases lineFetch e kind s
    · exact .inl (by cases page <;> rfl)
    · exact .inr (by cases page <;> rfl)
  · intro h
    have hno : lineFetch e kind s = false := by
      rcases h with h | h <;> simp [lineFetch, h]
    rw [hno]
    cases page <;> rfl

/-- A look in the TLB changes nothing that the memory system or the memory map go by. -/
theorem SameButLookup.aborted (h : SameButLookup s t) : t.aborted = s.aborted := by rw [h]; rfl

theorem SameButLookup.kindAt (h : SameButLookup s t) : t.kindAt = s.kindAt := by rw [h]; rfl

/-- The checks on an access and what it then meets, from the translation that the TLB gives (20_memory.md R104 to R106). -/
theorem accessChecked_of_tlbLookup {e : TlbEntry} (hm : s.cp15.control.m = true) (h : tlbLookup va s = .ok e t) :
    AccessChecked kind priv n va (e.physical va) (e.ap va) (domainOf e.l1) e.page s t := by
  have hlook : SameButLookup s t := by
    have hw := Within.tlbLookup va s
    rw [h] at hw
    exact hw.1
  have htr : translate kind priv va s = checkAccess e kind priv va t := by
    simp only [translate_mmu_on hm, h, Access.bind]
  rintro access allowed rfl rfl
  rw [← hlook.cp15, ← hlook.aborted, ← hlook.kindAt]
  refine ⟨fun hok ha => ?_, fun hok ha => ?_, fun hd hp => ?_, fun hd hp => ?_, fun hd => ?_⟩
  · exact reach_of_translate_ok (htr.trans (checkAccess_allowed hok)) ha
  · obtain ⟨hcodes, hplain⟩ := externalCode_lineFetch e kind t e.page
    exact ⟨_, reach_of_translate_aborted (htr.trans (checkAccess_allowed hok)) ha, hcodes, hplain⟩
  · exact reach_of_translate_abort (htr.trans ((checkAccess_client hd).1 hp))
  · exact reach_of_translate_refused (htr.trans ((checkAccess_client hd).2 hp))
  · exact reach_of_translate_abort (htr.trans (checkAccess_stranger hd))

/-- The same after a walk, whose descriptors the TLB keeps (10_state.md R78; log 19). -/
theorem accessChecked_of_walk {e : TlbEntry} {pa : Word} {ap : BitVec 2} {dom : BitVec 4} {page : Bool}
    (hm : s.cp15.control.m = true) (hmiss : ∀ x ∈ s.tlb, x.covers va = false) (h : walk va s = .ok e s)
    (hpa : e.physical va = pa) (hap : e.ap va = ap) (hdom : domainOf e.l1 = dom) (hpage : e.page = page) :
    AccessChecked kind priv n va pa ap dom page s (s.withTlb (s.tlb ++ [e])) := by
  subst hpa hap hdom hpage
  exact accessChecked_of_tlbLookup hm (by rw [tlbLookup_of_miss hmiss, h]; rfl)

end

/-- Settles O24: a hit in the TLB, or the walk descriptor by descriptor, each followed by the checks. -/
theorem addressTranslation : Obligations.AddressTranslation := by
  refine ⟨permits_table, fun dac d j hj => domainAccess_getLsbD dac d hj, fun kind priv n va s hm => ⟨?hit, ?miss⟩⟩
  case hit => exact fun e he => accessChecked_of_tlbLookup hm (tlbLookup_of_hit he)
  case miss =>
    rintro hmiss table rfl
    refine ⟨fun ha => ⟨_, reach_of_walk_abort hm hmiss (walk_of_aborted ha)⟩, ?_⟩
    rintro l1 dom hl1 rfl
    obtain ⟨hinvalid, hpage, hsection, hreserved⟩ := walk_of_holds hl1
    refine ⟨fun hb => ⟨_, reach_of_walk_abort hm hmiss (hinvalid hb)⟩,
      fun hb => reach_of_walk_refused hm hmiss (hreserved hb),
      fun hb => accessChecked_of_walk hm hmiss (hsection hb) rfl rfl rfl rfl, ?_⟩
    rintro hb page rfl
    have hwalk := hpage hb
    refine ⟨fun ha => reach_of_walk_abort hm hmiss (hwalk.trans (walkSecond_of_aborted ha)), fun l2 hl2 => ?_⟩
    obtain ⟨hinvalid, hlarge, hsmall, hreserved⟩ := walkSecond_of_holds hl2
    refine ⟨fun hb => reach_of_walk_abort hm hmiss (hwalk.trans (hinvalid hb)),
      fun hb => reach_of_walk_refused hm hmiss (hwalk.trans (hreserved hb)), fun ap hb hap => ?_, fun ap hb hap => ?_⟩
    · exact accessChecked_of_walk hm hmiss (hwalk.trans (hlarge hb)) rfl (subpageAp_eq hap) rfl rfl
    · exact accessChecked_of_walk hm hmiss (hwalk.trans (hsmall hb)) rfl (subpageAp_eq hap) rfl rfl

end Sys2Proof.Machine
end

section
/-! PROOF. O45: what was written, or moved, and not covered by a barrier is not executed (20_memory.md R114;
48_swap_swi_imb.md R383; 70_reset_and_hazards.md R505). -/

namespace Sys2Proof.Machine

/-! ### Stores -/

/-- The memory `m` reads as that of `s` but in the word that holds `pa`. -/
def OnlyWordChanged (s : State) (pa : Word) (m : Memory) : Prop :=
  ∀ a, ¬ inCells (wordAligned pa).toNat 4 a → m.read a = s.mem.read a

theorem onlyWordChanged_writeWord (s : State) {pa : Word} (v : Word) (h : pa.toNat % 4 = 0) :
    OnlyWordChanged s pa (s.mem.writeWord (wordCell pa) v) := fun a ha =>
  Memory.read_writeWord_of_ne _ v (by rw [inCells, wordAligned_toNat] at ha; rw [wordCell]; omega)

theorem onlyWordChanged_writeHalf (s : State) (b : Bool) {pa : Word} (v : BitVec 16) (h : pa.toNat % 2 = 0) :
    OnlyWordChanged s pa (s.mem.writeHalf (halfCell b pa) v) := fun a ha =>
  Memory.read_writeHalf_of_ne _ v (by
    rw [inCells, wordAligned_toNat] at ha
    rw [halfCell_eq b h]
    split <;> omega)

theorem onlyWordChanged_write (s : State) (b : Bool) (pa : Word) (v : Byte) :
    OnlyWordChanged s pa (s.mem.write (byteCell b pa) v) := fun a ha =>
  Memory.read_write_of_ne _ v (by
    rw [inCells, wordAligned_toNat] at ha
    rw [byteCell_eq]
    split <;> omega)

/-- A store that changes where a fetch goes puts the mapping of before on record (48_swap_swi_imb.md R383; log 50). -/
theorem oldMaps_stored_of_moved {s : State} {r : Reached} {m : Memory} (hrom : r.rom = false)
    (hm : OnlyWordChanged s r.pa m) {va : Word} (h : fetchTarget (s.stored r m) va ≠ fetchTarget s va) :
    (s.stored r m).oldMaps = s.mapping :: s.oldMaps := by
  have hremaps : remapsAt s r.pa = true := by
    by_contra hno
    exact h (fetchTarget_stored (Bool.not_eq_true _ ▸ hno) hm va)
  rw [State.stored_oldMaps, hrom, hremaps]
  rfl

/-- Every store changes at most the word it reaches (20_memory.md R91). -/
theorem store_of_reach {priv : Bool} {a : Word} {s u : State} {r : Reached} {n : Nat} {x : Access Unit}
    (hr : reach .write priv n (if n = 4 then wordAligned a else a) s = .ok r u)
    (hx : n = 4 ∧ (∃ v, x = storeWord priv a v s) ∨ n = 2 ∧ a.getLsbD 0 = false ∧ (∃ v, x = storeHalf priv a v s) ∨
      n = 1 ∧ (∃ v, x = storeByte priv a v s)) :
    ∃ m, x = .ok () (u.stored r m) ∧ OnlyWordChanged u r.pa m := by
  have hlow := reach_low hr
  rcases hx with ⟨rfl, v, rfl⟩ | ⟨rfl, heven, v, rfl⟩ | ⟨rfl, v, rfl⟩
  · rw [if_pos rfl] at hr hlow
    rw [(wordAligned_eq_self_iff _).1 (wordAligned_idem a), extractLsb'_two_eq_zero_iff] at hlow
    exact ⟨_, storeWord_of_reach v hr, onlyWordChanged_writeWord u v hlow⟩
  · have hbit : r.pa.getLsbD 0 = a.getLsbD 0 := by simpa using congrArg (fun y => y.getLsbD 0) hlow
    exact ⟨_, storeHalf_of_reach v hr,
      onlyWordChanged_writeHalf u _ v ((getLsbD_zero_eq_false_iff _).1 (hbit.trans heven))⟩
  · exact ⟨_, storeByte_of_reach v hr, onlyWordChanged_write u _ r.pa v⟩

/-! ### Fetches -/

theorem fetch_of_mappingOpen {s : State} (h : mappingOpen s s.pc = true) : fetch s = .refused .mappingChanged := by
  simp only [fetch, h, if_true]

theorem fetch_of_stale {s u : State} {r : Reached} (hmap : mappingOpen s s.pc = false)
    (hr : reach .fetch s.privileged 4 s.pc s = .ok r u) (hstale : staleAt u s.pc r.pa = true) :
    fetch s = .stuck .staleInstruction := by
  simp only [fetch, hmap, hr, hstale, Bool.false_eq_true, if_false, if_true]

/-- Without a reset a step whose fetch stops, stops. -/
theorem step_of_fetch_stuck {s : State} {r : Fault} (hreset : s.inputs.reset = false) (h : fetch s = .stuck r) :
    step s = .fault r := by
  simp only [step, hreset, runInstruction, h, endStep, Bool.false_eq_true, if_false]

theorem step_of_fetch_refused {s : State} {r : Refusal} (hreset : s.inputs.reset = false) (h : fetch s = .refused r) :
    step s = .refused r := by
  simp only [step, hreset, runInstruction, h, endStep, Bool.false_eq_true, if_false]

/-- A range misses a word unless it begins by the word's last byte and ends from its first on (48_swap_swi_imb.md R382). -/
theorem AddrRange.meets_eq_false_iff (x : AddrRange) (a : Word) :
    x.meets a = false ↔ ¬ (x.first.toNat ≤ a.toNat + 3 ∧ a.toNat ≤ x.last.toNat) := by
  rw [← Bool.not_eq_true, AddrRange.meets, Bool.and_eq_true, decide_eq_true_eq, decide_eq_true_eq]

/-- Settles O45: a store marks its word and records a mapping it changes; the fetch looks at both. -/
theorem unbarrieredWordStops : Obligations.UnbarrieredWordStops := by
  refine ⟨?store, ?stale, ?moved⟩
  case store =>
    intro priv a s u r n hrom hr x hx
    obtain ⟨m, rfl, hm⟩ := store_of_reach hr hx
    exact ⟨_, rfl, staleAt_stored u m hrom, fun _ => oldMaps_stored_of_moved hrom hm⟩
  case stale =>
    exact fun s u r hreset hmap hr hstale => step_of_fetch_stuck hreset (fetch_of_stale hmap hr hstale)
  case moved =>
    intro s o hreset ho hcovered hmoved
    have hopen : mappingOpen s s.pc = true :=
      (mappingOpen_iff s s.pc).2 ⟨o, ho, fun x hx => (x.meets_eq_false_iff s.pc).2 (hcovered x hx), hmoved⟩
    exact step_of_fetch_refused hreset (fetch_of_mappingOpen hopen)

end Sys2Proof.Machine
end

section
/-! PROOF. The fields of a word: what an encoded field holds at a bit, what the fields of a word hold together, and the
operand forms of 30_encoding.md R145 to R153 as bits of the word. -/

namespace Sys2Proof

/-! ### One field -/

theorem field_getLsbD_below {n lo k : Nat} (x : BitVec n) (h : k < lo) : (field lo x).getLsbD k = false := by
  simp [field_getLsbD, show ¬ lo ≤ k by omega]

theorem field_getLsbD_above {n lo k : Nat} (x : BitVec n) (h : lo + n ≤ k) : (field lo x).getLsbD k = false := by
  rw [field_getLsbD, BitVec.getLsbD_of_ge x _ (by omega), Bool.and_false]

theorem field_getLsbD_self {lo : Nat} (b : Bool) (h : lo < 32) : (field lo (BitVec.ofBool b)).getLsbD lo = b := by
  rw [field_getLsbD]
  simp [h]

theorem field_inj {n lo : Nat} (h : lo + n ≤ 32) {x y : BitVec n} : field lo x = field lo y ↔ x = y := by
  refine ⟨fun he => ?_, congrArg _⟩
  rw [← field_extract_self lo x h, he, field_extract_self lo y h]

/-- A field read from a word and put back is the word under the field's mask. -/
theorem field_extractLsb' (w : Word) (lo n : Nat) :
    field lo (w.extractLsb' lo n) = w &&& field lo (BitVec.allOnes n) := by
  refine BitVec.eq_of_getLsbD_eq fun i hi => ?_
  simp only [BitVec.getLsbD_and, field_getLsbD, BitVec.getLsbD_extractLsb', BitVec.getLsbD_allOnes]
  by_cases h : lo ≤ i
  · simp [hi, h, Bool.and_comm]
  · simp [h]

theorem and_fieldMask_eq_iff {n lo : Nat} (h : lo + n ≤ 32) (w : Word) (v : BitVec n) :
    w &&& field lo (BitVec.allOnes n) = field lo v ↔ w.extractLsb' lo n = v := by
  rw [← field_extractLsb', field_inj h]

/-- A flag of a word is a field of one bit. -/
theorem ofBool_getLsbD (w : Word) (k : Nat) : BitVec.ofBool (w.getLsbD k) = w.extractLsb' k 1 := by
  refine BitVec.eq_of_getLsbD_eq fun i hi => ?_
  simp [show i = 0 by omega]

/-! ### Operand forms read from a word and put back -/

theorem rotatedImmBits_rotatedImm (w : Word) : rotatedImmBits (rotatedImm w) = w &&& 0x00000FFF#32 := by
  simp only [rotatedImmBits, rotatedImm, field_extractLsb', ← BitVec.and_or_distrib_left]
  rfl

theorem shiftedRegBits_shiftedReg (w : Word) : shiftedRegBits (shiftedReg w) = w &&& 0x00000FEF#32 := by
  simp only [shiftedRegBits, shiftedReg, ShiftType.bits_ofBits, field_extractLsb', ← BitVec.and_or_distrib_left]
  rfl

theorem regShiftedRegBits_regShiftedReg (w : Word) :
    regShiftedRegBits (regShiftedReg w) = w &&& 0x00000F6F#32 := by
  simp only [regShiftedRegBits, regShiftedReg, ShiftType.bits_ofBits, field_extractLsb',
    ← BitVec.and_or_distrib_left]
  rfl

theorem indexingBits_indexing (w : Word) : indexingBits (indexing w) = w &&& 0x01A00000#32 := by
  simp only [indexingBits, indexing, ofBool_getLsbD, field_extractLsb', ← BitVec.and_or_distrib_left]
  rfl

theorem blockModeBits_blockMode (w : Word) : blockModeBits (blockMode w) = w &&& 0x01E00000#32 := by
  simp only [blockModeBits, blockMode, ofBool_getLsbD, field_extractLsb', ← BitVec.and_or_distrib_left]
  rfl

theorem splitOffsetBits_splitOffset (w : Word) : splitOffsetBits (splitOffset w) = w &&& 0x00000F0F#32 := by
  simp only [splitOffsetBits, splitOffset, BitVec.extractLsb'_append_eq_left, BitVec.extractLsb'_append_eq_right,
    field_extractLsb', ← BitVec.and_or_distrib_left]
  rfl

end Sys2Proof
end

section
/-! PROOF. O2 and O1: decoding and encoding are inverse on the well-formed instructions (30_encoding.md R142, R161, R177).
For each row its fixed bits and its fields make up the word. Where two rows take one word, the earlier is the later one
with further bits fixed, and an instruction of the later row is well formed exactly where those bits differ. -/

namespace Sys2Proof

/-! ### A row's fixed bits and its fields are the whole word -/

/-- The instruction that the row builds from a word it takes has that word. -/
def Row.Reencodes (r : Row) : Prop :=
  ∀ c w, Cond.ofBits (w.extractLsb' 28 4) = some c → r.matches w = true → encode (r.build c w) = w

/-- For each row, the fixed bits are the word under the row's mask and each field is the word under the field's mask;
these masks cover the word, so that no should-be field is forgotten (30_encoding.md R142, R161). -/
theorem Row.reencodes_of_mem : ∀ r ∈ rows, r.Reencodes := by
  simp only [rows, rowsMultiply, rowsSwap, rowsHalfword, rowsPsr, rowsDataProcessing1, rowsDataProcessing2,
    rowsDataProcessing3, rowsUndefined, rowsSingle, rowsBlock, rowsBranch, rowsCoprocTransfer, rowsSwi, rowsCoproc,
    List.forall_mem_append, List.forall_mem_cons, List.not_mem_nil, false_imp_iff, implies_true, and_true]
  and_intros
  all_goals
    intro c w hc hm
    have hfixed := beq_iff_eq.1 hm
    dsimp only at hfixed
    simp only [encode, Cond.bits_of_ofBits hc, ofBool_getLsbD, field_extractLsb', rotatedImmBits_rotatedImm,
      shiftedRegBits_shiftedReg, regShiftedRegBits_regShiftedReg, indexingBits_indexing, blockModeBits_blockMode,
      splitOffsetBits_splitOffset]
    rw [← hfixed]
    simp only [← BitVec.and_or_distrib_left]
    exact BitVec.and_allOnes

/-! ### An instruction's word belongs to its row and gives back its operands -/

theorem Instr.ctorIdx_lt (i : Instr) : i.ctorIdx < rows.length := by
  cases i <;> exact Nat.le_of_ble_eq_true rfl

/-- The row of an instruction: the constructors of `Instr` stand in the order of the table. -/
def Instr.row (i : Instr) : Row := rows[i.ctorIdx]'i.ctorIdx_lt

theorem Instr.row_mem (i : Instr) : i.row ∈ rows := List.getElem_mem _

/-- No field of an instruction reaches into the fixed bits of its row (30_encoding.md R177). Here and in
`Instr.row_build_encode`, `whnf` looks the row up in the table. -/
theorem Instr.row_matches_encode (i : Instr) : i.row.matches (encode i) = true := by
  cases i
  all_goals
    rw [Row.matches, beq_iff_eq]
    conv => lhs; arg 2; arg 1; whnf
    conv => rhs; arg 1; whnf
    simp (disch := decide) only [encode, rotatedImmBits, shiftedRegBits, regShiftedRegBits, indexingBits,
      blockModeBits, splitOffsetBits, BitVec.and_or_distrib_right, field_and_mask, BitVec.or_zero, BitVec.reduceAnd]

/-- The condition is in bits 31:28, and nothing else is (30_encoding.md R142). -/
theorem Instr.extractLsb'_encode_cond (i : Instr) : (encode i).extractLsb' 28 4 = i.cond.bits := by
  cases i
  all_goals
    simp (disch := decide) only [encode, Instr.cond, rotatedImmBits, shiftedRegBits, regShiftedRegBits,
      indexingBits, blockModeBits, splitOffsetBits, BitVec.extractLsb'_or, field_extract_self, field_extract_above,
      BitVec.reduceExtractLsb', BitVec.or_zero, BitVec.zero_or]

/-- Each operand is read from the bits it was put in, and no other field and no fixed bit shows there. -/
theorem Instr.row_build_encode (i : Instr) : i.row.build i.cond (encode i) = i := by
  have hoff : ∀ off : BitVec 8, off.extractLsb' 4 4 ++ off.extractLsb' 0 4 = off :=
    fun _ => BitVec.extractLsb'_append_extractLsb'
  cases i
  all_goals
    conv => lhs; fun; fun; arg 1; whnf
    simp (disch := decide) only [Instr.cond, encode, rotatedImm, shiftedReg, regShiftedReg, indexing, blockMode,
      splitOffset, rotatedImmBits, shiftedRegBits, regShiftedRegBits, indexingBits, blockModeBits, splitOffsetBits,
      BitVec.extractLsb'_or, field_extract_self, field_extract_below, field_extract_above, BitVec.reduceExtractLsb',
      BitVec.getLsbD_or, field_getLsbD_self, field_getLsbD_below, field_getLsbD_above, BitVec.reduceGetLsb,
      BitVec.or_zero, BitVec.zero_or, Bool.or_false, Bool.false_or, ShiftType.ofBits_bits, hoff]

/-! ### Rows that take one word -/

/-- Row `q` is row `r` with the value `v` fixed in the bits `d`, which are clear in `r`'s pattern. -/
def Row.narrows (q r : Row) (d v : Word) : Bool :=
  q.mask == (r.mask ||| d) && q.pattern == (r.pattern ||| v) && (r.pattern &&& d) == 0#32 && (v &&& d) == v

theorem Row.matches_iff_of_narrows {q r : Row} {d v w : Word} (h : q.narrows r d v = true)
    (hr : r.matches w = true) : q.matches w = true ↔ w &&& d = v := by
  simp only [Row.narrows, Row.matches, Bool.and_eq_true, beq_iff_eq] at *
  obtain ⟨⟨⟨hmask, hpattern⟩, hfree⟩, hv⟩ := h
  rw [hmask, hpattern, BitVec.and_or_distrib_left, hr]
  refine ⟨fun he => ?_, congrArg _⟩
  have hd := congrArg (· &&& d) he
  simpa only [BitVec.and_or_distrib_right, hfree, hv, BitVec.zero_or, BitVec.and_assoc, BitVec.and_self] using hd

/-- What the operands of a row may not be, as bits of the word and their value, since an earlier row holds it: P = 0 with
W = 1 for LDR, STR, LDRB and STRB (45_single_data_transfer.md R304), the two comments of the barriers for SWI
(48_swap_swi_imb.md R380, R381), coprocessor 15 for the MRC and MCR of the others (49_coprocessor_undefined.md R398). -/
def Row.claimed (r : Row) : List (Word × Word) :=
  if r.mask = 0x0E500000#32 ∨ r.mask = 0x0E500010#32 then [(0x01200000#32, 0x00200000#32)]
  else if r.mask = 0x0F000000#32 ∧ r.pattern = 0x0F000000#32 then
    [(0x00FFFFFF#32, 0x00F00000#32), (0x00FFFFFF#32, 0x00F00001#32)]
  else if r.mask = 0x0F100010#32 then [(0x00000F00#32, 0x00000F00#32)]
  else []

/-- The order of the table: a row contradicts each later row or narrows it to operands it claims (30_encoding.md R177). -/
theorem earlier_conflicts_or_narrows :
    rows.Pairwise fun q r => (r.conflicts q || r.claimed.any fun x => q.narrows r x.1 x.2) = true := by
  decide +kernel

/-- Operands are claimed by an earlier row only. -/
theorem claimed_by_earlier :
    (rows.zipIdx.all fun y => y.1.claimed.all fun x => (rows.take y.2).any fun q => q.narrows y.1 x.1 x.2) = true := by
  decide +kernel

theorem not_matches_of_not_claimed {before after : List Row} {r q : Row} {w : Word}
    (hrows : rows = before ++ r :: after) (hq : q ∈ before) (hr : r.matches w = true)
    (hfree : ∀ x ∈ r.claimed, ¬ w &&& x.1 = x.2) : q.matches w = false := by
  have horder := earlier_conflicts_or_narrows
  rw [hrows, List.pairwise_append] at horder
  obtain ⟨-, -, hacross⟩ := horder
  obtain hc | hn := Bool.or_eq_true_iff.1 (hacross q hq r List.mem_cons_self)
  · exact Row.not_matches_of_conflict hr (bne_iff_ne.1 hc)
  · obtain ⟨x, hx, hnarrows⟩ := List.any_eq_true.1 hn
    exact Bool.eq_false_iff.2 fun h => hfree x hx ((Row.matches_iff_of_narrows hnarrows hr).1 h)

theorem not_claimed_of_not_matches {before after : List Row} {r : Row} {w : Word}
    (hrows : rows = before ++ r :: after) (hr : r.matches w = true) (hbefore : ∀ q ∈ before, q.matches w = false) :
    ∀ x ∈ r.claimed, ¬ w &&& x.1 = x.2 := by
  intro x hx hw
  have hmem : (r, before.length) ∈ rows.zipIdx := by
    rw [List.mk_mem_zipIdx_iff_getElem?, hrows]
    simp
  have hany := List.all_eq_true.1 (List.all_eq_true.1 claimed_by_earlier _ hmem) x hx
  rw [hrows, List.take_left, List.any_eq_true] at hany
  obtain ⟨q, hq, hnarrows⟩ := hany
  rw [← Row.matches_iff_of_narrows hnarrows hr, hbefore q hq] at hw
  cases hw

/-! ### Well formed is not claimed -/

theorem plain_indexing_iff (w : Word) : (indexing w).plain = true ↔ ¬ w &&& 0x01200000#32 = 0x00200000#32 := by
  have hbits : w &&& 0x01200000#32 = indexingBits (indexing w) &&& 0x01200000#32 := by
    rw [indexingBits_indexing, BitVec.and_assoc]
    rfl
  rw [hbits]
  obtain ⟨p, u, w⟩ := indexing w
  revert p u w
  decide

theorem not_imbComment_iff (w : Word) : (!imbComment (w.extractLsb' 0 24)) = true ↔
    ¬ w &&& 0x00FFFFFF#32 = 0x00F00000#32 ∧ ¬ w &&& 0x00FFFFFF#32 = 0x00F00001#32 := by
  have hfield (v : BitVec 24) := and_fieldMask_eq_iff (lo := 0) (by decide) w v
  simp only [imbComment, Bool.not_or, Bool.and_eq_true, Bool.not_eq_true', beq_eq_false_iff_ne, ne_eq, ← hfield]
  exact Iff.rfl

theorem otherCoproc_iff (w : Word) : (w.extractLsb' 8 4 != 15#4) = true ↔ ¬ w &&& 0x00000F00#32 = 0x00000F00#32 := by
  rw [bne_iff_ne, ne_eq, ← and_fieldMask_eq_iff (lo := 8) (by decide)]
  rfl

/-- The instruction a row builds is well formed exactly where no earlier row claims its operands. -/
theorem Row.wf_build_iff :
    ∀ r ∈ rows, ∀ c w, (r.build c w).wf = true ↔ ∀ x ∈ r.claimed, ¬ w &&& x.1 = x.2 := by
  simp only [rows, rowsMultiply, rowsSwap, rowsHalfword, rowsPsr, rowsDataProcessing1, rowsDataProcessing2,
    rowsDataProcessing3, rowsUndefined, rowsSingle, rowsBlock, rowsBranch, rowsCoprocTransfer, rowsSwi, rowsCoproc,
    List.forall_mem_append, List.forall_mem_cons, List.not_mem_nil, false_imp_iff, implies_true, and_true]
  and_intros
  all_goals
    intro c w
    simp only [Instr.wf, plain_indexing_iff, not_imbComment_iff, otherCoproc_iff, Row.claimed, BitVec.reduceEq,
      or_self, or_true, true_or, and_self, and_true, and_false, if_true, if_false, List.forall_mem_cons,
      List.not_mem_nil, false_imp_iff, implies_true]

/-! ### The two round trips -/

/-- Settles O1: the instruction's row takes its word, and no earlier row does, since the instruction is well formed. -/
theorem encodeThenDecode : Obligations.EncodeThenDecode := by
  intro i hwf
  have hm := i.row_matches_encode
  have hfree := (Row.wf_build_iff i.row i.row_mem i.cond (encode i)).1 (by rwa [i.row_build_encode])
  obtain ⟨before, after, hrows⟩ := List.append_of_mem i.row_mem
  have hdecode := decode_of_row (i.extractLsb'_encode_cond ▸ i.cond.ofBits_bits) hrows hm
    fun q hq => .inr (not_matches_of_not_claimed hrows hq hm hfree)
  rw [hdecode, i.row_build_encode]

/-- Settles O2: the row that decodes a word builds an instruction with that word, and no earlier row claims its
operands. -/
theorem decodeThenEncode : Obligations.DecodeThenEncode := by
  intro w i h
  obtain ⟨c, r, hc, hfind, rfl⟩ := decode_ok h
  obtain ⟨hm, before, after, hrows, hbefore⟩ := List.find?_eq_some_iff_append.1 hfind
  have hmem : r ∈ rows := List.mem_of_find?_eq_some hfind
  have hfree := not_claimed_of_not_matches hrows hm fun q hq => by simpa using hbefore q hq
  exact ⟨(Row.wf_build_iff r hmem c w).2 hfree, Row.reencodes_of_mem r hmem c w hc hm⟩

end Sys2Proof
end

section
/-! PROOF. O4: the condition field 0b1111 (30_encoding.md R160; D5, log 9). -/

namespace Sys2Proof

/-- Fifteen of the sixteen values of the field are conditions (40_condition_field.md R181). -/
theorem Cond.ofBits_eq_none_iff (b : BitVec 4) : Cond.ofBits b = none ↔ b = 15#4 := by
  revert b
  decide

theorem decode_eq_nvCondition_iff (w : Word) : decode w = .error .nvCondition ↔ w.extractLsb' 28 4 = 15#4 := by
  rw [← Cond.ofBits_eq_none_iff]
  unfold decode
  split
  next hnone => simp [hnone]
  next c hc =>
    rw [hc]
    split
    · simp
    · split <;> simp

namespace Machine

theorem decodeFetched_of_nv {w : Word} (h : w.extractLsb' 28 4 = 15#4) (s : State) :
    decodeFetched w s = if s.plat.nvNeverExecutes then .never s else .refused .nvCondition := by
  simp only [decodeFetched, (decode_eq_nvCondition_iff w).2 h]

theorem fetch_of_reach {s u : State} {r : Reached} (hmap : mappingOpen s s.pc = false)
    (hr : reach .fetch s.privileged 4 s.pc s = .ok r u) (hstale : staleAt u s.pc r.pa = false) :
    fetch s = decodeFetched (u.mem.readWord (wordCell r.pa)) u := by
  simp only [fetch, hmap, hr, hstale, Bool.false_eq_true, if_false]

theorem reach_plat {kind : AccessKind} {priv : Bool} {n : Nat} {va : Word} {s t : State} {r : Reached}
    (h : reach kind priv n va s = .ok r t) : t.plat = s.plat := by
  have hw := Within.reach kind priv n va s
  rw [h] at hw
  exact hw.1.plat

/-- Without a reset a step whose fetch gives a word that never executes moves on. -/
theorem step_of_fetch_never {s u : State} (hreset : s.inputs.reset = false) (h : fetch s = .never u) :
    step s = endStep (advance (u.withBankHazard false)) := by
  simp only [step, hreset, runInstruction, h, Bool.false_eq_true, if_false]

/-- Settles O4. -/
theorem neverCondition : Obligations.NeverCondition := by
  refine ⟨decode_eq_nvCondition_iff, fun s u r hreset hmap hr hstale hnv => ?_⟩
  have hfetch := fetch_of_reach hmap hr hstale
  rw [decodeFetched_of_nv hnv, reach_plat hr] at hfetch
  refine ⟨fun hparam => ?refused, fun hparam hpc => ?never⟩
  case refused =>
    rw [hparam] at hfetch
    exact step_of_fetch_refused hreset hfetch
  case never =>
    rw [hparam] at hfetch
    have hupc : (u.withBankHazard false).pc = s.pc := (State.withBankHazard_pc u false).trans (reach_pc hr)
    rw [step_of_fetch_never hreset hfetch, advance_of_ne (hupc ▸ hpc), State.next4, hupc]

end Machine
end Sys2Proof
end

section
/-! PROOF. O6 and O7: the conditions over the flags, and that an instruction whose condition fails only moves on
(40_condition_field.md R180, R181). -/

namespace Sys2Proof.Machine

/-- Settles O6: a row is one flag or its complement, a comparison of N with V, or two of these joined. -/
theorem conditionTable : Obligations.ConditionTable := by
  intro fl
  have hnot : ∀ b : Bool, (!b) = true ↔ b = false := fun b => by simp
  refine ⟨.rfl, hnot _, .rfl, hnot _, .rfl, hnot _, .rfl, hnot _, ?hi, ?ls, ?ge, ?lt, ?gt, ?le, rfl⟩
  case hi => exact Bool.and_eq_true_iff.trans (and_congr_right' (hnot _))
  case ls => exact Bool.or_eq_true_iff.trans (or_congr_left (hnot _))
  case ge => exact beq_iff_eq
  case lt => exact bne_iff_ne
  case gt => exact Bool.and_eq_true_iff.trans (and_congr (hnot _) beq_iff_eq)
  case le => exact Bool.or_eq_true_iff.trans (or_congr_right bne_iff_ne)

/-- Every instruction is under its condition, before any check of its operands (40_condition_field.md R180). -/
theorem exec_of_fail {i : Instr} {s : State} (h : s.cpsr.flags.pass i.cond = false) : exec i s = advance s := by
  cases i <;> exact whenPassed_of_fail h

/-- Settles O7: an instruction whose condition fails only moves on, and there is no instruction after the one at
0xFFFFFFFC. -/
theorem cancelledOnlyAdvances : Obligations.CancelledOnlyAdvances := by
  intro i s hfail
  rw [exec_of_fail hfail]
  exact ⟨advance_of_ne, advance_last⟩

end Sys2Proof.Machine
end

section
/-! PROOF. O43: B and BL (41_branch.md R191, R192). -/

namespace Sys2Proof.Machine

/-! ### The target over the integers and as a word -/

/-- The offset of a branch, in bytes, as a word: four times the signed offset (30_encoding.md R154). -/
theorem branchOffset_eq (off : BitVec 24) : (off ++ 0#2).signExtend 32 = BitVec.ofInt 32 (4 * off.toInt) := by
  rw [BitVec.signExtend, BitVec.toInt_append_zero]
  rfl

/-- The target as a word is the target over the integers, cut to 32 bits (41_branch.md R191). -/
theorem branchTarget_eq_ofInt (pc : Word) (off : BitVec 24) :
    branchTarget pc off = BitVec.ofInt 32 (branchSum pc off) := by
  have hpc : BitVec.ofInt 32 (pc.toNat : Int) = pc := by
    rw [BitVec.ofInt_natCast, BitVec.ofNat_toNat, BitVec.setWidth_eq]
  rw [branchTarget, branchOffset_eq, branchSum, BitVec.ofInt_add, BitVec.ofInt_add, hpc]
  rfl

/-- The check of R191 on the target over the integers. -/
theorem branchFits_iff (pc : Word) (off : BitVec 24) :
    branchFits pc off = true ↔ 0 ≤ branchSum pc off ∧ branchSum pc off ≤ 0xFFFFFFFC := by
  simp [branchFits]

/-- A target in the address space is not cut. -/
theorem branchTarget_toNat {pc : Word} {off : BitVec 24} (h : branchFits pc off = true) :
    ((branchTarget pc off).toNat : Int) = branchSum pc off := by
  obtain ⟨hlo, hhi⟩ := (branchFits_iff pc off).1 h
  rw [branchTarget_eq_ofInt, BitVec.toNat_ofInt]
  omega

/-- The target of a branch at a word address is a word address (10_state.md R32). -/
theorem wordAligned_branchTarget {pc : Word} (off : BitVec 24) (h : wordAligned pc = pc) :
    wordAligned (branchTarget pc off) = branchTarget pc off := by
  have hoff : wordAligned ((off ++ 0#2).signExtend 32) = (off ++ 0#2).signExtend 32 := by
    rw [wordAligned_eq_self_iff, extractLsb'_two_eq_zero_iff, branchOffset_eq, BitVec.toNat_ofInt]
    omega
  exact wordAligned_add (wordAligned_add h (by decide)) hoff

/-! ### What B and BL do -/

section
variable {c : Cond} {off : BitVec 24} {s : State}

/-- A branch from a word address sets the PC to its target and changes nothing else. -/
theorem takeBranch_eq (off : BitVec 24) (h : wordAligned s.pc = s.pc) :
    takeBranch off s = .next (s.withPc (branchTarget s.pc off)) := by
  rw [takeBranch, jump, wordAligned_branchTarget off h]

/-- The state after BL: the link in R14 and the PC at the target (41_branch.md R192). -/
def linked (off : BitVec 24) (s : State) : State :=
  (s.setReg 14#4 (s.pc + 4#32)).withPc (branchTarget s.pc off)

/-- B to a target in the address space (41_branch.md R191). -/
theorem exec_b_of_fits (hc : s.cpsr.flags.pass c = true) (hpc : wordAligned s.pc = s.pc)
    (hfit : branchFits s.pc off = true) : exec (.b c off) s = .next (s.withPc (branchTarget s.pc off)) :=
  ((whenPassed_of_pass hc).trans (allowing_of_ok hfit)).trans (takeBranch_eq off hpc)

/-- BL to a target in the address space: the target is that of the PC before the link is written. -/
theorem exec_bl_of_fits (hc : s.cpsr.flags.pass c = true) (hpc : wordAligned s.pc = s.pc)
    (hfit : branchFits s.pc off = true) : exec (.bl c off) s = .next (linked off s) := by
  have hpc' : (s.setReg 14#4 (s.pc + 4#32)).pc = s.pc := State.setReg_pc_of_ne s _ (by decide)
  refine ((whenPassed_of_pass hc).trans (allowing_of_ok hfit)).trans ?_
  rw [takeBranch_eq off (by rw [hpc', hpc]), hpc', linked]

/-- Neither B nor BL goes to a target outside the address space (log 28). -/
theorem exec_branch_refused (hc : s.cpsr.flags.pass c = true) (hfit : branchFits s.pc off = false) :
    exec (.b c off) s = .refused .branchWraps ∧ exec (.bl c off) s = .refused .branchWraps :=
  ⟨(whenPassed_of_pass hc).trans (allowing_of_not hfit), (whenPassed_of_pass hc).trans (allowing_of_not hfit)⟩

/-- A write of the PC alone keeps the rest. -/
theorem AllKept.withPc (s : State) (x : Word) : AllKept s (s.withPc x) := by
  apply AllKept.of_eq <;> rfl

/-- R14 after BL is the address of the instruction after it (41_branch.md R192). -/
theorem linked_link (off : BitVec 24) (s : State) : (linked off s).readReg 14#4 = s.pc + 4#32 := by
  rw [linked, State.readReg_withPc _ _ (by decide), State.readReg_setReg_same _ _ (by decide)]

/-- BL writes no register but R14 of the current mode. -/
theorem linked_regs (off : BitVec 24) (s : State) : RegsKept [14#4] s (linked off s) :=
  RegsKept.setReg (s := s) (t := s) (fun _ _ => rfl) rfl (s.pc + 4#32) (by decide) (List.mem_singleton_self _)

/-- BL keeps all that is not a register. -/
theorem linked_kept (off : BitVec 24) (s : State) : AllKept s (linked off s) := by
  apply AllKept.of_eq <;> simp [linked]

end

/-- Settles O43: the model's check is that of the target over the integers, and a target that passes it is a word address
that 32 bits hold. -/
theorem branches : Obligations.Branches := by
  intro c off s hc hpc target hsum
  obtain rfl : target = branchSum s.pc off := hsum
  refine ⟨fun hout => ?outside, fun hlo hhi => ?inside⟩
  case outside =>
    refine exec_branch_refused hc (Bool.eq_false_iff.2 fun hfit => ?_)
    obtain ⟨hlo, hhi⟩ := (branchFits_iff _ _).1 hfit
    omega
  case inside =>
    have hfit : branchFits s.pc off = true := (branchFits_iff _ _).2 ⟨hlo, hhi⟩
    have htarget := branchTarget_toNat hfit
    exact ⟨⟨_, exec_b_of_fits hc hpc hfit, htarget, fun _ _ => rfl, rfl, AllKept.withPc _ _⟩,
      ⟨_, exec_bl_of_fits hc hpc hfit, htarget, linked_link off s, linked_regs off s, by simp [linked],
        linked_kept off s⟩⟩

end Sys2Proof.Machine
end

section
/-! PROOF. O3: words of the spec's examples and the instructions they are (30_encoding.md R142). -/

namespace Sys2Proof

/-- To know what a word is decoded to, it is enough to encode that instruction (30_encoding.md R142). -/
theorem decode_of_encode {w : Word} {i : Instr} (hwf : i.wf = true) (hw : encode i = w) : decode w = .ok i :=
  hw ▸ encodeThenDecode i hwf

/-- Settles O3: each instruction's word is the one written in the spec. -/
theorem writtenWordsDecode : Obligations.WrittenWordsDecode :=
  ⟨decode_of_encode rfl rfl, decode_of_encode rfl rfl, decode_of_encode rfl rfl, decode_of_encode rfl rfl,
    decode_of_encode rfl rfl, decode_of_encode rfl rfl, decode_of_encode rfl rfl, decode_of_encode rfl rfl,
    decode_of_encode rfl rfl, decode_of_encode rfl rfl, decode_of_encode rfl rfl, decode_of_encode rfl rfl⟩

end Sys2Proof
end

section
/-! PROOF. O9, O10, O11: the shifter (42_data_processing.md R204, R206, R207). First what one shift of a word by 1 to 31 does;
the two register forms are then the same shift with different rules for the other amounts. -/

namespace Sys2Proof.Machine

/-! ### Rotations and sign fills, bit by bit -/

theorem getLsbD_rotateRight_word (v : Word) (n : Nat) {i : Nat} (hi : i < 32) :
    (v.rotateRight n).getLsbD i = v.getLsbD ((i + n) % 32) := by
  rw [BitVec.getLsbD_rotateRight]
  by_cases h : i < 32 - n % 32
  · rw [decide_eq_true h, cond_true, show (i + n) % 32 = n % 32 + i by omega]
  · rw [decide_eq_false h, cond_false, decide_eq_true hi, Bool.true_and,
      show (i + n) % 32 = i - (32 - n % 32) by omega]

theorem getLsbD_signFill (v : Word) {i : Nat} (hi : i < 32) : (signFill v).getLsbD i = v.getLsbD 31 := by
  unfold signFill
  split
  · next h =>
    rw [h, show (0xFFFFFFFF#32 : Word) = BitVec.allOnes 32 from rfl, BitVec.getLsbD_allOnes, decide_eq_true hi]
  · next h => rw [Bool.eq_false_iff.2 h, BitVec.getLsbD_zero]

/-! ### A shift by an immediate amount -/

section
variable (v : Word) (c : Bool) {n : Nat}

/-- LSL by 1 to 31: a product, cut to 32 bits (42_data_processing.md R206). -/
theorem shiftByImm_lsl (hn : 0 < n) : (shiftByImm .lsl n v c).op2.toNat = v.toNat * 2 ^ n % 2 ^ 32 ∧
    (shiftByImm .lsl n v c).carry = v.getLsbD (32 - n) := by
  simp [shiftByImm, hn.ne', Nat.shiftLeft_eq]

/-- LSR by 1 to 31: a quotient (42_data_processing.md R206). -/
theorem shiftByImm_lsr (hn : 0 < n) : (shiftByImm .lsr n v c).op2.toNat = v.toNat / 2 ^ n ∧
    (shiftByImm .lsr n v c).carry = v.getLsbD (n - 1) := by
  simp [shiftByImm, hn.ne', Nat.shiftRight_eq_div_pow]

/-- ASR by 1 to 31: a signed quotient, rounded down (42_data_processing.md R206). -/
theorem shiftByImm_asr (hn : 0 < n) : (shiftByImm .asr n v c).op2.toInt = v.toInt / 2 ^ n ∧
    (shiftByImm .asr n v c).carry = v.getLsbD (n - 1) := by
  simp [shiftByImm, hn.ne', BitVec.toInt_sshiftRight, Int.shiftRight_eq_div_pow]

/-- ROR by 1 to 31 (42_data_processing.md R206). -/
theorem shiftByImm_ror (hn : 0 < n) :
    (∀ i, i < 32 → (shiftByImm .ror n v c).op2.getLsbD i = v.getLsbD ((i + n) % 32)) ∧
      (shiftByImm .ror n v c).carry = v.getLsbD (n - 1) := by
  simp only [shiftByImm, hn.ne', if_false, and_true]
  exact fun i hi => getLsbD_rotateRight_word v n hi

theorem shiftByImm_lsl_zero : shiftByImm .lsl 0 v c = ⟨v, c⟩ := rfl

theorem shiftByImm_lsr_zero : shiftByImm .lsr 0 v c = ⟨0#32, v.getLsbD 31⟩ := rfl

theorem shiftByImm_asr_zero : shiftByImm .asr 0 v c = ⟨signFill v, v.getLsbD 31⟩ := rfl

/-- The encoding of ROR by 0 is RRX: C above bits 31:1 (42_data_processing.md R206). -/
theorem shiftByImm_rrx : (shiftByImm .ror 0 v c).op2.getLsbD 31 = c ∧
    (∀ i, i < 31 → (shiftByImm .ror 0 v c).op2.getLsbD i = v.getLsbD (i + 1)) ∧
      (shiftByImm .ror 0 v c).carry = v.getLsbD 0 := by
  have happend : ∀ i, (shiftByImm .ror 0 v c).op2.getLsbD i =
      if i < 31 then (v.extractLsb' 1 31).getLsbD i else (BitVec.ofBool c).getLsbD (i - 31) := fun i =>
    BitVec.getLsbD_append (x := BitVec.ofBool c) (y := v.extractLsb' 1 31)
  refine ⟨by rw [happend]; simp, fun i hi => ?_, rfl⟩
  simp [happend, hi, Nat.add_comm]

/-! ### A shift by a register amount -/

theorem shiftByReg_zero (type : ShiftType) : shiftByReg type 0 v c = ⟨v, c⟩ := rfl

/-- By 1 to 31 a register shift is the shift by an immediate (42_data_processing.md R207). -/
theorem shiftByReg_of_lt (type : ShiftType) (hn : 0 < n) (h : n < 32) :
    shiftByReg type n v c = shiftByImm type n v c := by
  cases type <;> simp [shiftByReg, shiftByImm, hn.ne', h, Nat.mod_eq_of_lt h]

theorem shiftByReg_lsl_of_gt (h : 32 < n) : shiftByReg .lsl n v c = ⟨0#32, false⟩ := by
  simp [shiftByReg, show n ≠ 0 by omega, show ¬ n < 32 by omega, h.ne']

theorem shiftByReg_lsr_of_gt (h : 32 < n) : shiftByReg .lsr n v c = ⟨0#32, false⟩ := by
  simp [shiftByReg, show n ≠ 0 by omega, show ¬ n < 32 by omega, h.ne']

theorem shiftByReg_asr_of_ge (h : 32 ≤ n) : shiftByReg .asr n v c = ⟨signFill v, v.getLsbD 31⟩ := by
  simp [shiftByReg, show n ≠ 0 by omega, show ¬ n < 32 by omega]

theorem shiftByReg_ror_of_multiple (hn : 0 < n) (h : n % 32 = 0) : shiftByReg .ror n v c = ⟨v, v.getLsbD 31⟩ := by
  simp [shiftByReg, hn.ne', h]

/-- A rotation by a register amount other than a multiple of 32 is one by its bottom five bits (42_data_processing.md
R207). -/
theorem shiftByReg_ror_mod (h : 0 < n % 32) : shiftByReg .ror n v c = shiftByImm .ror (n % 32) v c := by
  simp [shiftByReg, shiftByImm, show n ≠ 0 by omega, h.ne']

end

/-! ### The three forms of the second operand -/

/-- Settles O9: the rotation, bit by bit, of an immediate whose bits from 8 on are clear. -/
theorem rotatedImmediate : Obligations.RotatedImmediate := by
  intro op c
  refine ⟨fun i hi => ?_, rfl⟩
  change (rotatedValue op).getLsbD i = _
  rw [rotatedValue, getLsbD_rotateRight_word _ _ hi, BitVec.getLsbD_setWidth]
  simp [Nat.mod_lt]

/-- Settles O10, by the type of the shift: amount 0 is each type's own case, the others are one shift. -/
theorem shiftByImmediate : Obligations.ShiftByImmediate := by
  rintro amount rm s v n c rfl rfl rfl
  refine ⟨?lsl, ?lsr, ?asr, ?ror⟩ <;> rintro r rfl
  all_goals simp only [shiftedOperand]
  case lsl => exact ⟨fun h => by simp [h, shiftByImm_lsl_zero], shiftByImm_lsl _ _⟩
  case lsr => exact ⟨fun h => by simp [h, shiftByImm_lsr_zero], shiftByImm_lsr _ _⟩
  case asr =>
    exact ⟨fun h => by rw [h, shiftByImm_asr_zero]; exact ⟨fun i hi => getLsbD_signFill _ hi, rfl⟩, shiftByImm_asr _ _⟩
  case ror => exact ⟨fun h => by rw [h]; exact shiftByImm_rrx _ _, shiftByImm_ror _ _⟩

/-- Settles O11, by the type of the shift and the range of the amount. -/
theorem shiftByRegister : Obligations.ShiftByRegister := by
  rintro rs rm s v n c rfl hn rfl
  have hbyte : ((s.readReg rs).extractLsb' 0 8).toNat = n := by simp [hn]
  simp only [regShiftedOperand, hbyte]
  refine ⟨fun h type => h ▸ shiftByReg_zero _ _ type, ?lsl, ?lsr, ?asr, ?ror⟩ <;> rintro r rfl
  case lsl =>
    exact ⟨fun h h' => shiftByReg_of_lt _ _ _ h h' ▸ shiftByImm_lsl _ _ h, fun h => by rw [h]; exact ⟨rfl, rfl⟩,
      fun h => shiftByReg_lsl_of_gt _ _ h ▸ ⟨rfl, rfl⟩⟩
  case lsr =>
    exact ⟨fun h h' => shiftByReg_of_lt _ _ _ h h' ▸ shiftByImm_lsr _ _ h, fun h => by rw [h]; exact ⟨rfl, rfl⟩,
      fun h => shiftByReg_lsr_of_gt _ _ h ▸ ⟨rfl, rfl⟩⟩
  case asr =>
    exact ⟨fun h h' => shiftByReg_of_lt _ _ _ h h' ▸ shiftByImm_asr _ _ h,
      fun h => shiftByReg_asr_of_ge _ _ h ▸ ⟨fun i hi => getLsbD_signFill _ hi, rfl⟩⟩
  case ror =>
    exact ⟨fun h h' => shiftByReg_ror_of_multiple _ _ h h' ▸ ⟨rfl, rfl⟩, fun h => by
      obtain ⟨hbits, hcarry⟩ := shiftByImm_ror (s.readReg rm) s.cpsr.flags.c h
      rw [shiftByReg_ror_mod _ _ h]
      exact ⟨fun i hi => (hbits i hi).trans (by simp [Nat.add_mod]), hcarry⟩⟩

end Sys2Proof.Machine
end

section
/-! PROOF. O8: the sixteen operations (00_scope.md section 6.3; 42_data_processing.md R212 to R229). First the adder, over the
integers: eight of the operations are one of its two uses. -/

namespace Sys2Proof.Machine

/-- The adder's output is exact: `u` is the sum over the unsigned values of the operands, `v` over the signed ones, and
`borrow` says that the carry is the inverse of borrow (00_scope.md section 6.3; 42_data_processing.md R212). -/
structure Sum.Exact (x : Sum) (borrow : Bool) (u v : Int) : Prop where
  result   : x.result = BitVec.ofInt 32 u
  carry    : x.carry = if borrow then decide (0 ≤ u) else decide (2 ^ 32 ≤ u)
  overflow : x.overflow = decide (v < -(2 ^ 31) ∨ 2 ^ 31 ≤ v)

/-- The signed sum is narrowed to its value where it fits, and only there (00_scope.md section 6.3). -/
theorem toInt_ofInt_ne_iff (v : Int) : v ≠ (BitVec.ofInt 32 v).toInt ↔ v < -(2 ^ 31) ∨ 2 ^ 31 ≤ v := by
  rw [BitVec.toInt_ofInt, Int.bmod_def]
  omega

/-- The result of the adder does not depend on whether its operands are read as signed. -/
theorem ofNat_add_eq_ofInt (a b : Word) (c : Bool) :
    BitVec.ofNat 32 (a.toNat + b.toNat + c.toNat) = BitVec.ofInt 32 (a.toInt + b.toInt + c.toNat) := by
  simp [BitVec.ofInt_add, BitVec.ofNat_add]

/-- A sum (00_scope.md section 6.3). -/
theorem addWithCarry_exact (a b : Word) (c : Bool) :
    (addWithCarry a b c).Exact false (a.toNat + b.toNat + c.toNat) (a.toInt + b.toInt + c.toNat) where
  result := by simp [addWithCarry, BitVec.ofInt_add, BitVec.ofNat_add]
  carry := by simp [addWithCarry]; omega
  overflow := by
    simp only [addWithCarry, ofNat_add_eq_ofInt]
    exact decide_eq_decide.2 (toInt_ofInt_ne_iff _)

/-- The complement is the negative less one. -/
theorem toInt_not_word (b : Word) : (~~~b).toInt = -1 - b.toInt := by
  have hlt := b.isLt
  rw [BitVec.toInt_eq_toNat_cond, BitVec.toInt_eq_toNat_cond, BitVec.toNat_not]
  split <;> split <;> omega

/-- A difference: the sum with the complement is `2^32` more over the unsigned values, which is the carry of a difference
without borrow, and the same over the signed ones (42_data_processing.md R212, R216). -/
theorem addWithCarry_not_exact (a b : Word) (c : Bool) :
    (addWithCarry a (~~~b) c).Exact true (a.toNat - b.toNat - (1 - c.toNat)) (a.toInt - b.toInt - (1 - c.toNat)) := by
  obtain ⟨hresult, hcarry, hoverflow⟩ := addWithCarry_exact a (~~~b) c
  have hu : (a.toNat + (~~~b).toNat + c.toNat : Int) = a.toNat - b.toNat - (1 - c.toNat) + (2 ^ 32 : Nat) := by
    rw [BitVec.toNat_not]
    omega
  have hv : (a.toInt + (~~~b).toInt + c.toNat : Int) = a.toInt - b.toInt - (1 - c.toNat) := by
    rw [toInt_not_word]
    omega
  refine ⟨?_, ?_, hv ▸ hoverflow⟩
  · rw [hresult, hu, BitVec.ofInt_add, BitVec.ofInt_natCast]
    exact BitVec.add_zero _
  · rw [hcarry, hu]
    simp

/-- A result of the adder, with its flags, is exact where the adder is. -/
theorem Sum.Exact.sumOut {x : Sum} {borrow : Bool} {u u' v v' : Int} (h : x.Exact borrow u v) (hu : u = u') (hv : v = v') :
    (sumOut x).result = BitVec.ofInt 32 u' ∧
      (sumOut x).flags.c = (if borrow then decide (0 ≤ u') else decide (2 ^ 32 ≤ u')) ∧
      (sumOut x).flags.v = decide (v' < -(2 ^ 31) ∨ 2 ^ 31 ≤ v') :=
  hu ▸ hv ▸ ⟨h.result, h.carry, h.overflow⟩

/-- N and Z are those of the result, for each operation (42_data_processing.md R212). -/
theorem alu_nz (op : DpOp) (a : Word) (sh : ShifterOut) (old : Flags) :
    (alu op a sh old).flags.n = (alu op a sh old).result.getLsbD 31 ∧
      (alu op a sh old).flags.z = decide ((alu op a sh old).result = 0#32) := by
  cases op <;> exact ⟨rfl, rfl⟩

/-- An arithmetic operation is a use of the adder (42_data_processing.md R216 to R221, R224, R225). -/
theorem alu_arithmetic {op : DpOp} {a : Word} {sh : ShifterOut} {old : Flags} {u v : Int}
    (hu : op.exact a.toNat sh.op2.toNat old.c = some u) (hv : op.exact a.toInt sh.op2.toInt old.c = some v) :
    (alu op a sh old).result = BitVec.ofInt 32 u ∧
      (alu op a sh old).flags.c = (if op.subtracts then decide (0 ≤ u) else decide (2 ^ 32 ≤ u)) ∧
      (alu op a sh old).flags.v = decide (v < -(2 ^ 31) ∨ 2 ^ 31 ≤ v) := by
  cases op with
  | and | eor | orr | mov | bic | mvn | tst | teq => cases hu
  | sub | cmp => cases hu; cases hv; exact (addWithCarry_not_exact a sh.op2 true).sumOut (by simp) (by simp)
  | rsb => cases hu; cases hv; exact (addWithCarry_not_exact sh.op2 a true).sumOut (by simp) (by simp)
  | add | cmn => cases hu; cases hv; exact (addWithCarry_exact a sh.op2 false).sumOut (by simp) (by simp)
  | adc => cases hu; cases hv; exact (addWithCarry_exact a sh.op2 old.c).sumOut rfl rfl
  | sbc => cases hu; cases hv; exact (addWithCarry_not_exact a sh.op2 old.c).sumOut rfl rfl
  | rsc => cases hu; cases hv; exact (addWithCarry_not_exact sh.op2 a old.c).sumOut rfl rfl

/-- A logical operation acts on each bit, takes C from the shifter and leaves V (42_data_processing.md R212, R214, R215,
R222, R223, R226 to R229). -/
theorem alu_logical {op : DpOp} {a : Word} {sh : ShifterOut} {old : Flags} (h : op.exact 0 0 old.c = none) :
    (∀ i, i < 32 → op.bitwise (a.getLsbD i) (sh.op2.getLsbD i) = some ((alu op a sh old).result.getLsbD i)) ∧
      (alu op a sh old).flags.c = sh.carry ∧ (alu op a sh old).flags.v = old.v := by
  cases op with
  | sub | rsb | add | adc | sbc | rsc | cmp | cmn => cases h
  | and | tst => exact ⟨fun i hi => congrArg some BitVec.getLsbD_and.symm, rfl, rfl⟩
  | eor | teq => exact ⟨fun i hi => congrArg some BitVec.getLsbD_xor.symm, rfl, rfl⟩
  | orr => exact ⟨fun i hi => congrArg some BitVec.getLsbD_or.symm, rfl, rfl⟩
  | mov => exact ⟨fun i hi => rfl, rfl, rfl⟩
  | bic => exact ⟨fun i hi => by simp [alu, logicalOut, DpOp.bitwise, hi], rfl, rfl⟩
  | mvn => exact ⟨fun i hi => by simp [alu, logicalOut, DpOp.bitwise, hi], rfl, rfl⟩

/-- Settles O8, by the two kinds of operation. -/
theorem aluIsExact : Obligations.AluIsExact := fun op a sh old =>
  ⟨alu_nz op a sh old, fun _ _ => alu_arithmetic, alu_logical⟩

end Sys2Proof.Machine
end

section
/-! PROOF. O12 to O15: the data-processing instructions (42_data_processing.md R200 to R213). Each form is its operand handed to
`writeAlu`; what `writeAlu` does is said once, for a result that goes on and for one that goes to R15. -/

namespace Sys2Proof.Machine

/-! ### The three forms of an instruction -/

/-- The operation takes no first operand: MOV, MVN (42_data_processing.md R200). -/
def DpOp.moves : DpOp → Bool
  | .mov | .mvn => true
  | _ => false

section
variable (op : DpOp) {c : Cond} (sf : Bool) (rn rd : Reg) {s : State}

/-- What TST, TEQ, CMP and CMN have no field for does not matter to them, nor the first operand to MOV and MVN. -/
theorem exec_immInstr (imm : RotatedImm) (hc : s.cpsr.flags.pass c = true) :
    exec (immInstr op c sf rn rd imm) s =
      writeAlu op sf rd (alu op (s.readReg rn) (immOperand imm s.cpsr.flags.c) s.cpsr.flags) s := by
  cases op <;> exact whenPassed_of_pass hc

theorem exec_regInstr (sh : ShiftedReg) (hc : s.cpsr.flags.pass c = true) :
    exec (regInstr op c sf rn rd sh) s =
      writeAlu op sf rd (alu op (s.readReg rn) (shiftedOperand sh s) s.cpsr.flags) s := by
  cases op <;> exact whenPassed_of_pass hc

/-- The registers that an instruction with a register-specified shift names are checked, and no others: R0 stands for a
field that the operation does not have (42_data_processing.md R211). -/
theorem exec_rsrInstr (sh : RegShiftedReg) (hc : s.cpsr.flags.pass c = true) :
    exec (rsrInstr op c sf rn rd sh) s =
      allowing (regShiftOk (if op.moves then 0#4 else rn) (if op.compares then 0#4 else rd) sh) .r15WithRegisterShift
        (writeAlu op sf rd (alu op (s.readReg rn) (regShiftedOperand sh s) s.cpsr.flags) s) := by
  cases op <;> exact whenPassed_of_pass hc

theorem regShiftOk_iff (sh : RegShiftedReg) :
    regShiftOk rn rd sh = true ↔ rn ≠ 15#4 ∧ rd ≠ 15#4 ∧ sh.rs ≠ 15#4 ∧ sh.rm ≠ 15#4 := by
  simp [regShiftOk, isPc, and_assoc]

end

/-! ### A result that goes on -/

section
variable {op : DpOp} {sf : Bool} {rd : Reg} {s : State} (x : AluOut)

theorem writeAlu_compares (h : op.compares = true) : writeAlu op sf rd x s = advance (s.withFlags x.flags) := by
  simp only [writeAlu, h, if_true]

theorem writeAlu_register (h : op.compares = false) (hrd : rd ≠ 15#4) :
    writeAlu op sf rd x s = advance ((s.withFlags (if sf then x.flags else s.cpsr.flags)).setReg rd x.result) := by
  have hd : isPc rd = false := by simpa [isPc] using hrd
  rw [writeAlu, h, hd]
  cases sf <;> rfl

/-- A comparison is done when the flags are written (42_data_processing.md R200, R212). -/
theorem DpDone.compares (h : op.compares = true) : DpDone op sf rd x s (s.withFlags x.flags).next4 :=
  ⟨by simp [h], by simp [h, State.next4], rfl, fun _ _ => rfl, by apply AllKept.of_eq <;> rfl⟩

/-- Another operation is done when the flags, with S, and then the register are written (42_data_processing.md R200, R212). -/
theorem DpDone.register (h : op.compares = false) (hrd : rd ≠ 15#4) :
    DpDone op sf rd x s
      ((s.withFlags (if sf then x.flags else s.cpsr.flags)).setReg rd x.result).next4 := by
  generalize hu : s.withFlags (if sf then x.flags else s.cpsr.flags) = u
  have hregs : RegsKept [rd] s (u.setReg rd x.result) :=
    RegsKept.setReg (fun _ _ => hu ▸ rfl) (hu ▸ rfl) _ hrd (List.mem_singleton_self rd)
  refine ⟨fun _ => ?_, ?_, ?_, by rw [h]; exact hregs, ?_⟩
  · rw [State.next4, State.readReg_withPc _ _ hrd, State.readReg_setReg_same _ _ hrd]
  · simp [State.next4, h, ← hu]
  · rw [State.next4, State.withPc_pc, State.setReg_pc_of_ne _ _ hrd, ← hu]; rfl
  · apply AllKept.of_eq <;> simp [State.next4, ← hu]

/-- A result that is compared, or goes to a register other than R15: the instruction completes, or has no successor
(42_data_processing.md R200, R212; 10_state.md R34). -/
theorem writeAlu_completes (h : op.compares = true ∨ rd ≠ 15#4) :
    (s.pc ≠ 0xFFFFFFFC#32 → ∃ t, writeAlu op sf rd x s = .next t ∧ DpDone op sf rd x s t) ∧
      (s.pc = 0xFFFFFFFC#32 → writeAlu op sf rd x s = .refused .noSuccessor) := by
  cases hop : op.compares with
  | true =>
    rw [writeAlu_compares x hop]
    exact ⟨fun hpc => ⟨_, advance_of_ne hpc, .compares x hop⟩, fun hpc => advance_last (s := s.withFlags x.flags) hpc⟩
  | false =>
    have hrd : rd ≠ 15#4 := h.resolve_left (by simp [hop])
    have hpc' := State.setReg_pc_of_ne (s.withFlags (if sf then x.flags else s.cpsr.flags)) x.result hrd
    rw [writeAlu_register x hop hrd]
    exact ⟨fun hpc => ⟨_, advance_of_ne (hpc'.trans_ne hpc), .register x hop hrd⟩, fun hpc => advance_last (hpc'.trans hpc)⟩

/-! ### A result that goes to R15 -/

/-- Without S a result in R15 is a branch (42_data_processing.md R213). -/
theorem writeAlu_branch (h : op.compares = false) :
    writeAlu op false 15#4 x s = .next (s.withPc (wordAligned x.result)) := by
  simp only [writeAlu, h, Bool.false_eq_true, if_false]
  rfl

/-- With S it is an exception return (42_data_processing.md R213). -/
theorem writeAlu_return (h : op.compares = false) : writeAlu op true 15#4 x s = returnTo x.result s := by
  simp only [writeAlu, h, Bool.false_eq_true, if_false]
  rfl

end

section
variable {target : Word} {s : State} {p : Spsr}

/-- User and System mode have nothing to return from (10_state.md R49). -/
theorem returnTo_of_none (h : s.spsrNow = none) : returnTo target s = .refused .noSpsr := by
  simp only [returnTo, h]

/-- Mode bits that are no mode are not restored (10_state.md R45). -/
theorem returnTo_of_bad_mode (hp : s.spsrNow = some p) (hm : Mode.ofBits p.m = none) :
    returnTo target s = .refused .badMode := by
  simp only [returnTo, hp, Spsr.restored, hm]

theorem Spsr.restored_of_mode {m : Mode} (hm : Mode.ofBits p.m = some m) :
    p.restored = some { flags := p.flags, i := p.i, f := p.f, mode := m } := by
  simp only [Spsr.restored, hm]

end

/-! ### The statements -/

/-- Settles O12. -/
theorem dataImmediateResult : Obligations.DataImmediateResult := by
  intro op c sf rn rd imm s hc h
  rw [exec_immInstr op sf rn rd imm hc]
  exact writeAlu_completes _ h

/-- Settles O13. -/
theorem dataRegisterResult : Obligations.DataRegisterResult := by
  intro op c sf rn rd sh s hc h
  rw [exec_regInstr op sf rn rd sh hc]
  exact writeAlu_completes _ h

/-- Settles O14: no register is R15, so the operands are allowed. -/
theorem dataRegisterShiftResult : Obligations.DataRegisterShiftResult := by
  intro op c sf rn rd sh s hc hrn hrd hrs hrm
  have hok : regShiftOk (if op.moves then 0#4 else rn) (if op.compares then 0#4 else rd) sh = true := by
    refine (regShiftOk_iff _ _ _).2 ⟨?_, ?_, hrs, hrm⟩ <;> split
    exacts [by decide, hrn, by decide, hrd]
  rw [exec_rsrInstr op sf rn rd sh hc, allowing_of_ok hok]
  exact writeAlu_completes _ (.inr hrd)

/-- Settles O15: in both forms the result is written to R15, which is a branch or a return. -/
theorem dataWritesPc : Obligations.DataWritesPc := by
  rintro op c sf rn s i sh hop hc hi result rfl
  have hexec : exec i s = writeAlu op sf 15#4 (alu op (s.readReg rn) sh s.cpsr.flags) s := by
    rcases hi with ⟨imm, rfl, rfl⟩ | ⟨x, rfl, rfl⟩
    · exact exec_immInstr op sf rn _ imm hc
    · exact exec_regInstr op sf rn _ x hc
  rw [hexec]
  refine ⟨?branch, ?noSpsr, ?spsr⟩ <;> rintro rfl
  case branch => exact writeAlu_branch _ hop
  all_goals rw [writeAlu_return _ hop]
  case noSpsr => exact returnTo_of_none
  case spsr =>
    exact fun p hp => ⟨fun m hm => returnTo_of_some hp (Spsr.restored_of_mode hm), returnTo_of_bad_mode hp⟩

end Sys2Proof.Machine
end

section
/-! PROOF. O16: the operand combinations called UNPREDICTABLE (42_data_processing.md R211; 44_multiply.md R271;
45_single_data_transfer.md R293; 46_halfword_signed_transfer.md R323; 47_block_data_transfer.md R342;
48_swap_swi_imb.md R370). First for each family when its check fails; its instructions then refuse. -/

namespace Sys2Proof.Machine

/-! ### Multiplies and swaps -/

theorem isPc_iff (r : Reg) : isPc r = true ↔ r = 15#4 := beq_iff_eq

theorem mulOk_eq_false_iff (rd rs rm : Reg) :
    mulOk rd rs rm = false ↔ rd = 15#4 ∨ rs = 15#4 ∨ rm = 15#4 ∨ rd = rm := by
  simp only [mulOk, Bool.and_eq_false_iff, Bool.not_eq_false', isPc_iff, bne_eq_false_iff_eq, or_assoc]

theorem mlaOk_eq_false_iff (rd rn rs rm : Reg) :
    mlaOk rd rn rs rm = false ↔ rd = 15#4 ∨ rn = 15#4 ∨ rs = 15#4 ∨ rm = 15#4 ∨ rd = rm := by
  rw [mlaOk, Bool.and_eq_false_iff, mulOk_eq_false_iff, Bool.not_eq_false', isPc_iff]
  tauto

theorem mulLongOk_eq_false_iff (hi lo rs rm : Reg) :
    mulLongOk hi lo rs rm = false ↔
      hi = 15#4 ∨ lo = 15#4 ∨ rs = 15#4 ∨ rm = 15#4 ∨ hi = lo ∨ hi = rm ∨ lo = rm := by
  simp only [mulLongOk, Bool.and_eq_false_iff, Bool.not_eq_false', isPc_iff, bne_eq_false_iff_eq, or_assoc]

theorem swapOk_eq_false_iff (rn rd rm : Reg) :
    swapOk rn rd rm = false ↔ rn = 15#4 ∨ rd = 15#4 ∨ rm = 15#4 ∨ rn = rd ∨ rn = rm := by
  simp only [swapOk, Bool.and_eq_false_iff, Bool.not_eq_false', isPc_iff, bne_eq_false_iff_eq, or_assoc]

/-! ### Single and halfword transfers -/

section
variable (ix : Indexing) (rn rd rm : Reg)

theorem writesBack_iff : writesBack ix = true ↔ ix.p = false ∨ ix.w = true := by
  simp [writesBack]

theorem baseOk_eq_false_iff : baseOk ix rn rd = false ↔ writesBack ix = true ∧ (rn = 15#4 ∨ rd = rn) := by
  simp only [baseOk, Bool.or_eq_false_iff, Bool.not_eq_false', Bool.and_eq_false_iff, isPc_iff,
    bne_eq_false_iff_eq]

theorem offsetRegOk_eq_false_iff :
    offsetRegOk ix rn rm = false ↔ rm = 15#4 ∨ writesBack ix = true ∧ rm = rn := by
  simp only [offsetRegOk, Bool.or_eq_false_iff, Bool.not_eq_false', Bool.and_eq_false_iff, isPc_iff,
    bne_eq_false_iff_eq]

/-- A T form always writes its base back (45_single_data_transfer.md R304). -/
theorem writesBack_indexing_iff (k : SingleKind) :
    writesBack (k.indexing ix) = true ↔ k.translate = true ∨ ix.p = false ∨ ix.w = true := by
  unfold SingleKind.indexing
  split <;> simp_all [writesBack_iff, translateIndexing]

/-- Only LDR and STR may name R15 (45_single_data_transfer.md R293 e). -/
theorem translate_or_byte_iff (k : SingleKind) : (k.translate || k.byte) = true ↔ k ≠ .ldr ∧ k ≠ .str := by
  cases k <;> decide

theorem SingleOffset.ok_eq_false_iff (o : SingleOffset) :
    o.ok ix rn = false ↔ ∃ x, o = .reg x ∧ (x.rm = 15#4 ∨ writesBack ix = true ∧ x.rm = rn) := by
  cases o with
  | imm off => simp [SingleOffset.ok]
  | reg op => simp [SingleOffset.ok, offsetRegOk_eq_false_iff]

/-- The operands that R293 a to e forbid (45_single_data_transfer.md). -/
theorem singleOk_eq_false_iff (k : SingleKind) (o : SingleOffset) {wb : Prop}
    (hwb : wb ↔ k.translate = true ∨ ix.p = false ∨ ix.w = true) :
    singleOk k o ix rn rd = false ↔
      (wb ∧ (rn = 15#4 ∨ rd = rn)) ∨ (∃ x, o = .reg x ∧ (x.rm = 15#4 ∨ (wb ∧ x.rm = rn))) ∨
        (rd = 15#4 ∧ k ≠ .ldr ∧ k ≠ .str) := by
  have hpc : (!((k.translate || k.byte) && isPc rd)) = false ↔ rd = 15#4 ∧ k ≠ .ldr ∧ k ≠ .str := by
    rw [Bool.not_eq_false', Bool.and_eq_true, translate_or_byte_iff, isPc_iff, and_comm]
  rw [← writesBack_indexing_iff] at hwb
  rw [singleOk, Bool.and_eq_false_iff, Bool.and_eq_false_iff, baseOk_eq_false_iff, hpc, SingleOffset.ok_eq_false_iff, hwb,
    or_assoc, or_comm (a := _ ∧ k ≠ _ ∧ _)]

theorem halfImmOk_eq_false_iff : halfImmOk ix rn rd = false ↔
    (ix.p = false ∧ ix.w = true) ∨ (writesBack ix = true ∧ (rn = 15#4 ∨ rd = rn)) ∨ rd = 15#4 := by
  have hplain : ix.plain = false ↔ ix.p = false ∧ ix.w = true := by simp [Indexing.plain]
  rw [halfImmOk, Bool.and_eq_false_iff, Bool.and_eq_false_iff, hplain, baseOk_eq_false_iff, Bool.not_eq_false', isPc_iff,
    or_assoc]

/-- The operands that R323 a to d forbid (46_halfword_signed_transfer.md). -/
theorem halfOk_eq_false_iff (o : HalfOffset) {wb : Prop} (hwb : wb ↔ ix.p = false ∨ ix.w = true) :
    halfOk o ix rn rd = false ↔
      (ix.p = false ∧ ix.w = true) ∨ (wb ∧ (rn = 15#4 ∨ rd = rn)) ∨
        (∃ rm, o = .reg rm ∧ (rm = 15#4 ∨ (wb ∧ rm = rn))) ∨ rd = 15#4 := by
  rw [← writesBack_iff] at hwb
  cases o with
  | imm off => simp [halfOk, halfImmOk_eq_false_iff, hwb]
  | reg rm =>
    rw [halfOk, halfRegOk, Bool.and_eq_false_iff, halfImmOk_eq_false_iff, offsetRegOk_eq_false_iff, hwb]
    simp only [HalfOffset.reg.injEq, exists_eq_left', or_assoc, or_comm (a := rd = 15#4)]

end

section
variable {c : Cond} {ix : Indexing} {rn rd : Reg} {s : State}

theorem exec_single_refused (k : SingleKind) (o : SingleOffset) (hc : s.cpsr.flags.pass c = true)
    (h : singleOk k o ix rn rd = false) : exec (singleInstr k o c ix rn rd) s = .refused .transferOperands := by
  cases o with
  | imm off =>
    have h : singleImmOk (k.translate || k.byte) (k.indexing ix) rn rd = false := (Bool.and_true _).symm.trans h
    cases k <;> exact (whenPassed_of_pass hc).trans (allowing_of_not h)
  | reg op => cases k <;> exact (whenPassed_of_pass hc).trans (allowing_of_not h)

theorem exec_half_refused (k : HalfKind) (o : HalfOffset) (hc : s.cpsr.flags.pass c = true)
    (h : halfOk o ix rn rd = false) : exec (halfInstr k o c ix rn rd) s = .refused .halfwordOperands := by
  cases o <;> cases k <;> exact (whenPassed_of_pass hc).trans (allowing_of_not h)

end

/-! ### Block transfers -/

section
variable (bm : BlockMode) (rn : Reg) (list : BitVec 16)

theorem loadBlockOk_eq_false_iff : loadBlockOk bm rn list = false ↔
    list = 0#16 ∨ rn = 15#4 ∨ (bm.w = true ∧ inList list rn = true) ∨
      (bm.s = true ∧ bm.w = true ∧ inList list 15#4 = false) := by
  simp only [loadBlockOk, Bool.and_eq_false_iff, Bool.not_eq_false', isPc_iff, bne_eq_false_iff_eq,
    Bool.and_eq_true, Bool.not_eq_true', or_assoc, and_assoc]

/-- The registers of a list ascend, so that no other is below the first (47_block_data_transfer.md R341). -/
theorem not_lt_of_head_regsOf {r q : Reg} (h : (regsOf list).head? = some r) (hq : inList list q = true) : ¬ q < r := by
  have hsorted : (regsOf list).Pairwise (· < ·) := List.Pairwise.filter _ (by decide)
  have hmem := (mem_regsOf list q).2 hq
  obtain ⟨rs, hrs⟩ := List.head?_eq_some_iff.1 h
  rw [hrs, List.pairwise_cons] at hsorted
  rw [hrs, List.mem_cons] at hmem
  rcases hmem with rfl | hmem
  · exact BitVec.lt_irrefl q
  · exact BitVec.lt_asymm (hsorted.1 q hmem)

/-- The operands that R342 a, b, d and f forbid (47_block_data_transfer.md). -/
theorem storeBlockOk_eq_false {bm : BlockMode} {rn : Reg} {list : BitVec 16}
    (h : list = 0#16 ∨ rn = 15#4 ∨ (bm.s = true ∧ bm.w = true) ∨
      (bm.w = true ∧ inList list rn = true ∧ ∃ r, r < rn ∧ inList list r = true)) :
    storeBlockOk bm rn list = false := by
  rcases h with rfl | rfl | ⟨hs, hw⟩ | ⟨hw, hin, r, hlt, hr⟩
  · rfl
  · simp [storeBlockOk, isPc_iff]
  · simp [storeBlockOk, hs, hw]
  · have hhead : (regsOf list).head? ≠ some rn := fun h => not_lt_of_head_regsOf list h hr hlt
    simp [storeBlockOk, hw, hin, hhead]

theorem blockModeOk_eq_false {m : Mode} (hs : bm.s = true) (hm : m = .usr ∨ m = .sys) : blockModeOk bm m = false := by
  rcases hm with rfl | rfl <;> simp [blockModeOk, hs]

theorem blockFits_eq_false_iff (start : Word) :
    blockFits start list = false ↔ 2 ^ 32 < (wordAligned start).toNat + 4 * (regsOf list).length := by
  simp [blockFits]

end

/-- An LDM or STM with S in a mode without a bank of its own is refused where its operands are allowed
(47_block_data_transfer.md R342 e). -/
theorem exec_block_userBank {c : Cond} {bm : BlockMode} {s : State} (rn : Reg) (list : BitVec 16)
    (hc : s.cpsr.flags.pass c = true) (hmode : blockModeOk bm s.cpsr.mode = false) :
    (loadBlockOk bm rn list = true → exec (.ldm c bm rn list) s = .refused .userBlockMode) ∧
      (storeBlockOk bm rn list = true → exec (.stm c bm rn list) s = .refused .userBlockMode) :=
  ⟨fun hok => (whenPassed_of_pass hc).trans ((allowing_of_ok hok).trans (allowing_of_not hmode)),
    fun hok => (whenPassed_of_pass hc).trans ((allowing_of_ok hok).trans (allowing_of_not hmode))⟩

/-- An LDM or STM that crosses from 0xFFFFFFFC to 0 is refused where its operands and mode are allowed
(47_block_data_transfer.md R342 g; log 28). -/
theorem exec_block_wraps {c : Cond} {bm : BlockMode} {rn : Reg} {list : BitVec 16} {s : State}
    (hc : s.cpsr.flags.pass c = true) (hmode : blockModeOk bm s.cpsr.mode = true)
    (hfits : blockFits (blockStart bm (s.readReg rn) list) list = false) :
    (loadBlockOk bm rn list = true → exec (.ldm c bm rn list) s = .refused .transferWraps) ∧
      (storeBlockOk bm rn list = true → exec (.stm c bm rn list) s = .refused .transferWraps) :=
  ⟨fun hok => (whenPassed_of_pass hc).trans
      ((allowing_of_ok hok).trans ((allowing_of_ok hmode).trans (allowing_of_not hfits))),
    fun hok => (whenPassed_of_pass hc).trans
      ((allowing_of_ok hok).trans ((allowing_of_ok hmode).trans (allowing_of_not hfits)))⟩

/-! ### Register-specified shifts -/

/-- A register-specified shift with R15 in a field that the operation has is refused (42_data_processing.md R211). -/
theorem exec_rsr_refused {c : Cond} {s : State} (op : DpOp) (sf : Bool) {rn rd : Reg} {sh : RegShiftedReg}
    (hc : s.cpsr.flags.pass c = true)
    (h : op.moves = false ∧ rn = 15#4 ∨ op.compares = false ∧ rd = 15#4 ∨ sh.rs = 15#4 ∨ sh.rm = 15#4) :
    exec (rsrInstr op c sf rn rd sh) s = .refused .r15WithRegisterShift := by
  rw [exec_rsrInstr op sf rn rd sh hc]
  refine allowing_of_not (Bool.eq_false_iff.2 fun hok => ?_)
  obtain ⟨hrn, hrd, hrs, hrm⟩ := (regShiftOk_iff _ _ _).1 hok
  rcases h with ⟨hop, h⟩ | ⟨hop, h⟩ | h | h
  · exact hrn (by simp [hop, h])
  · exact hrd (by simp [hop, h])
  · exact hrs h
  · exact hrm h

/-- Settles O16: each clause lists what makes the check of its family fail. -/
theorem forbiddenOperandsStop : Obligations.ForbiddenOperandsStop := by
  intro c s hc
  have refuse {r : Refusal} {ok : Bool} {k : Result} (h : ok = false) : whenPassed c s (allowing ok r k) = .refused r :=
    (whenPassed_of_pass hc).trans (allowing_of_not h)
  refine ⟨fun sf rn rd sh h op hop => ?twoOperands, fun sf rn rd sh h op hop => ?moves,
    fun sf rn rd sh h op hop => ?compares,
    fun _ rd rs rm h => refuse ((mulOk_eq_false_iff rd rs rm).2 h),
    fun _ rd rn rs rm h => refuse ((mlaOk_eq_false_iff rd rn rs rm).2 h),
    fun _ hi lo rs rm h => ?mulLong,
    fun k o ix rn rd wb hwb => ⟨singleOk_eq_false_iff ix rn rd k o hwb, exec_single_refused k o hc⟩,
    fun k o ix rn rd wb hwb => ⟨halfOk_eq_false_iff ix rn rd o hwb, exec_half_refused k o hc⟩,
    fun rn rd rm h => ?swap,
    fun bm rn list h => refuse ((loadBlockOk_eq_false_iff bm rn list).2 h),
    fun bm rn list h => refuse (storeBlockOk_eq_false h),
    fun bm rn list hs hm => ?userBank, fun bm rn list hmode hwrap => ?wrap⟩
  case twoOperands =>
    have hop : op.moves = false ∧ op.compares = false := by revert op; decide
    obtain ⟨hmoves, hcompares⟩ := hop
    exact exec_rsr_refused op sf hc (h.imp (⟨hmoves, ·⟩) (.imp_left (⟨hcompares, ·⟩)))
  case moves =>
    have hop : op.compares = false := by revert op; decide
    exact exec_rsr_refused op sf hc (.inr (h.imp_left (⟨hop, ·⟩)))
  case compares =>
    have hop : op.moves = false := by revert op; decide
    exact exec_rsr_refused op sf hc (h.imp (⟨hop, ·⟩) .inr)
  case mulLong =>
    have hok := (mulLongOk_eq_false_iff hi lo rs rm).2 h
    exact ⟨refuse hok, refuse hok, refuse hok, refuse hok⟩
  case swap =>
    have hok := (swapOk_eq_false_iff rn rd rm).2 h
    exact ⟨refuse hok, refuse hok⟩
  case userBank =>
    exact exec_block_userBank rn list hc (blockModeOk_eq_false bm hs hm)
  case wrap =>
    exact exec_block_wraps hc hmode ((blockFits_eq_false_iff list _).2 hwrap)

end Sys2Proof.Machine
end

section
/-! PROOF. O17, O18, O19: MRS and MSR (43_psr_transfer.md R250 to R256). First the fields of a PSR in its word, then
the SPSR of a mode read after a write, then what each transfer does once its condition and operand are accepted. -/

namespace Sys2Proof.Machine

/-! ### The fields of a status register -/

/-- The flags of a word are its bits 31:28 (10_state.md R41). -/
theorem flagsAre_ofWord (v : Word) : FlagsAre (Flags.ofWord v) v := ⟨rfl, rfl, rfl, rfl⟩

/-- The word of a PSR holds the flags, I, F and M at their places, whatever the reserved bits (10_state.md R41, R47). -/
theorem psrWord_fields (fl : Flags) (i f : Bool) (m : BitVec 5) (free : Word) :
    FlagsAre fl (psrWord fl i f m free) ∧ (psrWord fl i f m free).getLsbD 7 = i ∧
      (psrWord fl i f m free).getLsbD 6 = f ∧ (psrWord fl i f m free).extractLsb' 0 5 = m := by
  have hflags : FlagsAre fl (psrWord fl i f m free) := by
    simp only [FlagsAre, psrWord, Flags.bits, BitVec.getLsbD_append]
    simp
  refine ⟨hflags, ?_, ?_, BitVec.extractLsb'_append_eq_right⟩ <;>
  · simp only [psrWord, BitVec.getLsbD_append]
    simp

/-- The mode bits of the mode that mode bits stand for (10_state.md R44). -/
theorem Mode.bits_of_ofBits {b : BitVec 5} {m : Mode} (h : Mode.ofBits b = some m) : m.bits = b := by
  revert b; cases m <;> decide

/-- Only a mode with an SPSR has one to set; it then reads as it was set (10_state.md R40, R49). -/
theorem Spsrs.get_set_same {x : Spsrs} {m : Mode} {p : Spsr} (q : Spsr) (h : x.get m = some p) :
    (x.set m q).get m = some q := by
  cases m
  case usr | sys => cases h
  all_goals rfl

/-- Setting the SPSR of a mode leaves those of the others (10_state.md R40). -/
theorem Spsrs.get_set_of_ne (x : Spsrs) {m k : Mode} (q : Spsr) (h : k ≠ m) : (x.set m q).get k = x.get k := by
  revert h
  cases m <;> cases k <;> simp [Spsrs.get, Spsrs.set]

/-! ### MRS -/

section
variable {c : Cond} {s : State}

theorem exec_mrs_pc (spsr : Bool) (hc : s.cpsr.flags.pass c = true) :
    exec (.mrs c spsr 15#4) s = .refused .r15Operand :=
  (whenPassed_of_pass hc).trans (allowing_of_not rfl)

/-- MRS of the SPSR in a mode that has none (10_state.md R49). -/
theorem exec_mrs_noSpsr {rd : Reg} (hc : s.cpsr.flags.pass c = true) (hrd : rd ≠ 15#4) (hp : s.spsrNow = none) :
    exec (.mrs c true rd) s = .refused .noSpsr := by
  have hok : (!isPc rd) = true := by simpa [isPc] using hrd
  change execMrs c true rd s = _
  simp only [execMrs, whenPassed_of_pass hc, allowing_of_ok hok, hp, if_true]

/-- MRS writes the word of the status register to its register as MRC does the word of a coprocessor's
(43_psr_transfer.md R251). -/
theorem exec_mrs {spsr : Bool} {rd : Reg} {p : Spsr} (hc : s.cpsr.flags.pass c = true) (hrd : rd ≠ 15#4)
    (hp : spsr = false ∧ p = s.cpsr.saved ∨ spsr = true ∧ s.spsrNow = some p) :
    exec (.mrs c spsr rd) s = writeMrc rd (psrWord p.flags p.i p.f p.m s.draw) s.drawn := by
  have hd : isPc rd = false := by simpa [isPc] using hrd
  change execMrs c spsr rd s = _
  rw [execMrs, whenPassed_of_pass hc, allowing_of_ok (by rw [hd]; rfl), writeMrc, hd]
  rcases hp with ⟨rfl, rfl⟩ | ⟨rfl, hp⟩
  · rfl
  · simp only [hp, if_true, Bool.false_eq_true, if_false]

end

/-! ### MSR -/

/-- The flags after an MSR follow the field f of the mask (43_psr_transfer.md R254). -/
theorem msrFlags_spec (mask : BitVec 4) (v : Word) (old : Flags) :
    (mask.getLsbD 3 = true → FlagsAre (msrFlags mask v old) v) ∧
      (mask.getLsbD 3 = false → msrFlags mask v old = old) := by
  constructor <;> intro h <;> rw [msrFlags, h]
  · exact flagsAre_ofWord v
  · rfl

section
variable {mask : BitVec 4} {v : Word} {s : State}

/-- The field c in a privileged mode: flags, I, F and the mode (43_psr_transfer.md R254, R255). -/
theorem msrCpsr_control {m : Mode} (hmask : mask.getLsbD 0 = true) (hmode : s.cpsr.mode ≠ .usr)
    (hm : Mode.ofBits (v.extractLsb' 0 5) = some m) :
    msrCpsr mask v s = advance (s.withCpsr
      { flags := msrFlags mask v s.cpsr.flags, i := v.getLsbD 7, f := v.getLsbD 6, mode := m }) := by
  simp only [msrCpsr, hmask, State.privileged_of_ne hmode, hm, Bool.and_self, if_true]

/-- Mode bits that are no mode are not written to the CPSR (10_state.md R45). -/
theorem msrCpsr_badMode (hmask : mask.getLsbD 0 = true) (hmode : s.cpsr.mode ≠ .usr)
    (hm : Mode.ofBits (v.extractLsb' 0 5) = none) : msrCpsr mask v s = .refused .badMode := by
  simp only [msrCpsr, hmask, State.privileged_of_ne hmode, hm, Bool.and_self, if_true]

/-- Without the field c, and in User mode with it too, an MSR writes the flags at most (43_psr_transfer.md R254, R255). -/
theorem msrCpsr_flags (h : mask.getLsbD 0 = false ∨ s.cpsr.mode = .usr) :
    msrCpsr mask v s = advance (s.withFlags (msrFlags mask v s.cpsr.flags)) := by
  have hctl : (mask.getLsbD 0 && s.privileged) = false := by
    rcases h with h | h
    · rw [h, Bool.false_and]
    · rw [State.privileged, h]; exact Bool.and_false _
  simp only [msrCpsr, hctl, Bool.false_eq_true, if_false]

/-- An MSR to the CPSR that is not refused writes the CPSR alone: the flags by the field f, and the control bits where the
field c counts (43_psr_transfer.md R254, R255). -/
theorem msrCpsr_completes
    (h : mask.getLsbD 0 = false ∨ s.cpsr.mode = .usr ∨ ∃ m, Mode.ofBits (v.extractLsb' 0 5) = some m) :
    ∃ x : Cpsr, msrCpsr mask v s = advance (s.withCpsr x) ∧ x.flags = msrFlags mask v s.cpsr.flags ∧
      (mask.getLsbD 0 = true ∧ s.cpsr.mode ≠ .usr →
        x.i = v.getLsbD 7 ∧ x.f = v.getLsbD 6 ∧ x.mode.bits = v.extractLsb' 0 5) ∧
      (mask.getLsbD 0 = false ∨ s.cpsr.mode = .usr → x.i = s.cpsr.i ∧ x.f = s.cpsr.f ∧ x.mode = s.cpsr.mode) := by
  by_cases hctl : mask.getLsbD 0 = true ∧ s.cpsr.mode ≠ .usr
  · obtain ⟨hmask, hmode⟩ := hctl
    obtain ⟨m, hm⟩ := (h.resolve_left (by simp [hmask])).resolve_left hmode
    exact ⟨_, msrCpsr_control hmask hmode hm, rfl, fun _ => ⟨rfl, rfl, Mode.bits_of_ofBits hm⟩,
      fun hno => absurd hno (by simp [hmask, hmode])⟩
  · have hno : mask.getLsbD 0 = false ∨ s.cpsr.mode = .usr :=
      (not_and_or.1 hctl).imp Bool.eq_false_iff.2 not_not.1
    exact ⟨_, msrCpsr_flags hno, rfl, fun h => absurd h hctl, fun _ => ⟨rfl, rfl, rfl⟩⟩

/-- The SPSR that an MSR makes of `p`: the flags by the field f, I, F and the mode bits as written by the field c
(43_psr_transfer.md R254). -/
def Spsr.afterMsr (mask : BitVec 4) (v : Word) (p : Spsr) : Spsr where
  flags := msrFlags mask v p.flags
  i := if mask.getLsbD 0 then v.getLsbD 7 else p.i
  f := if mask.getLsbD 0 then v.getLsbD 6 else p.f
  m := if mask.getLsbD 0 then v.extractLsb' 0 5 else p.m

theorem Spsr.afterMsr_of_control (p : Spsr) (h : mask.getLsbD 0 = true) :
    p.afterMsr mask v = ⟨msrFlags mask v p.flags, v.getLsbD 7, v.getLsbD 6, v.extractLsb' 0 5⟩ := by
  simp only [Spsr.afterMsr, h, if_true]

theorem Spsr.afterMsr_of_not_control (p : Spsr) (h : mask.getLsbD 0 = false) :
    p.afterMsr mask v = { p with flags := msrFlags mask v p.flags } := by
  simp only [Spsr.afterMsr, h, Bool.false_eq_true, if_false]

/-- MSR to the SPSR of a mode that has one (43_psr_transfer.md R254). -/
theorem msrSpsr_of_some {p : Spsr} (hp : s.spsrNow = some p) :
    msrSpsr mask v s = advance (s.withSpsr (s.spsr.set s.cpsr.mode (p.afterMsr mask v))) := by
  simp only [msrSpsr, hp]
  cases h : mask.getLsbD 0
  · rw [Spsr.afterMsr_of_not_control p h]; rfl
  · rw [Spsr.afterMsr_of_control p h]; rfl

/-- User and System mode have no SPSR to write (10_state.md R49). -/
theorem msrSpsr_of_none (hp : s.spsrNow = none) : msrSpsr mask v s = .refused .noSpsr := by
  simp only [msrSpsr, hp]

end

/-! ### The statements -/

/-- Settles O17: the word that MRS writes holds the fields of the status register. -/
theorem mrsReads : Obligations.MrsReads := by
  rintro c spsr rd s ⟨hc, hpc⟩
  refine ⟨?pc, ?noSpsr, fun hrd p hp => ?reads⟩
  case pc => rintro rfl; exact exec_mrs_pc spsr hc
  case noSpsr => rintro hrd rfl hp; exact exec_mrs_noSpsr hc hrd hp
  case reads =>
    obtain ⟨t, ht, hread, hnext, hregs, hflags, hkept⟩ :=
      writeMrc_reg (psrWord p.flags p.i p.f p.m s.draw) hpc hrd
    obtain ⟨hfl, hi, hf, hm⟩ := psrWord_fields p.flags p.i p.f p.m s.draw
    rw [← hread] at hfl hi hf hm
    exact ⟨t, (exec_mrs hc hrd hp).trans ht, hfl, hi, hf, hm, hnext, hregs, hflags, hkept⟩

/-- Settles O18: an MSR to the CPSR writes the flags only, or in a privileged mode with the field c the control bits too. -/
theorem PsrTransfer.msrCpsr : Obligations.MsrCpsr := by
  rintro c mask i v s ⟨hc, hpc⟩
  refine ⟨fun spsr => (whenPassed_of_pass hc).trans (allowing_of_not rfl), fun hform => ?_⟩
  have hexec : exec i s = Machine.msrCpsr mask v s := exec_msr hc hform
  obtain ⟨hset, hkeep⟩ := msrFlags_spec mask v s.cpsr.flags
  rw [hexec]
  refine ⟨fun h => ?_, msrCpsr_badMode⟩
  obtain ⟨x, hx, hfl, hwritten, hkept⟩ := msrCpsr_completes h
  rw [← hfl] at hset hkeep
  exact ⟨_, hx.trans (advance_of_ne hpc), hset, hkeep, hwritten, hkept, rfl, fun _ _ => rfl, rfl, rfl,
    ⟨⟨rfl, rfl, rfl⟩, rfl, rfl⟩, fun _ => rfl, rfl⟩

/-- Settles O19: an MSR to the SPSR changes that of the current mode only. -/
theorem PsrTransfer.msrSpsr : Obligations.MsrSpsr := by
  rintro c mask i v s ⟨hc, hpc⟩ hform
  have hexec : exec i s = Machine.msrSpsr mask v s := exec_msr hc hform
  rw [hexec]
  refine ⟨msrSpsr_of_none, fun p hp => ?_⟩
  obtain ⟨hset, hkeep⟩ := msrFlags_spec mask v p.flags
  exact ⟨_, p.afterMsr mask v, (msrSpsr_of_some hp).trans (advance_of_ne hpc), Spsrs.get_set_same _ hp, hset, hkeep,
    fun h => by rw [Spsr.afterMsr_of_control p h]; exact ⟨rfl, rfl, rfl⟩,
    fun h => by rw [Spsr.afterMsr_of_not_control p h]; exact ⟨rfl, rfl, rfl⟩, fun m hm => Spsrs.get_set_of_ne _ _ hm,
    rfl, fun _ _ => rfl, rfl, rfl, ⟨⟨rfl, rfl, rfl⟩, rfl, rfl⟩, fun _ => rfl, rfl⟩

end Sys2Proof.Machine
end

section
/-! PROOF. O20, O21: the multiplies (44_multiply.md R270 to R279). What `writeMul` and `writeMulLong` do is said once, for
any product; each instruction then owes only that its operands are allowed and that its product is the exact one. -/

namespace Sys2Proof.Machine

/-! ### What is kept, through more than one write -/

theorem AllKept.trans {s t u : State} (h : AllKept s t) (k : AllKept t u) : AllKept s u where
  rest :=
    { control := ⟨k.rest.control.i.trans h.rest.control.i, k.rest.control.f.trans h.rest.control.f,
        k.rest.control.mode.trans h.rest.control.mode, k.rest.control.spsr.trans h.rest.control.spsr,
        k.rest.control.cp15.trans h.rest.control.cp15⟩
      outside := ⟨k.rest.outside.oldMaps.trans h.rest.outside.oldMaps, k.rest.outside.plat.trans h.rest.outside.plat,
        k.rest.outside.env.trans h.rest.outside.env⟩
      hazard := k.rest.hazard.trans h.rest.hazard }
  tlb := k.tlb.trans h.tlb
  mem := ⟨fun a => (k.mem.1 a).trans (h.mem.1 a), k.mem.2.trans h.mem.2⟩

/-- A register write is none of memory, control bits and the rest. -/
theorem AllKept.setReg (s : State) (r : Reg) (v : Word) : AllKept s (s.setReg r v) := by
  apply AllKept.of_eq <;> simp

/-! ### The flags of a product -/

/-- The state once the flags of a product are written: with S they are `fl`, for which `n` values are drawn
(44_multiply.md R272). -/
def State.mulFlagged (sf : Bool) (n : Nat) (fl : Flags) (s : State) : State :=
  if sf then (s.withDraws (s.draws + n)).withFlags fl else s

section
variable (sf : Bool) (n : Nat) (fl : Flags) (s : State)

@[simp] theorem State.mulFlagged_pc : (s.mulFlagged sf n fl).pc = s.pc := by
  cases sf <;> rfl

@[simp] theorem State.mulFlagged_regs : (s.mulFlagged sf n fl).regs = s.regs := by
  cases sf <;> rfl

@[simp] theorem State.mulFlagged_cpsr :
    (s.mulFlagged sf n fl).cpsr = { s.cpsr with flags := if sf then fl else s.cpsr.flags } := by
  cases sf <;> rfl

theorem AllKept.mulFlagged : AllKept s (s.mulFlagged sf n fl) := by
  cases sf <;> apply AllKept.of_eq <;> rfl

theorem RegsKept.mulFlagged (rs : List Reg) : RegsKept rs s (s.mulFlagged sf n fl) := fun _ _ => by
  rw [State.mulFlagged_regs]

end

/-! ### The product is written -/

/-- The state once a 32-bit product is written (44_multiply.md R272 to R274). -/
def State.withProduct (sf : Bool) (rd : Reg) (p : Word) (s : State) : State :=
  (s.mulFlagged sf 1 (mulFlags p (s.draw.getLsbD 0) s.cpsr.flags)).setReg rd p

/-- The state once the lower half of a 64-bit product is written, and with S the flags. -/
def State.withProductLow (sf : Bool) (lo : Reg) (p : BitVec 64) (s : State) : State :=
  (s.mulFlagged sf 2 (mulLongFlags p (s.draw.getLsbD 0) (s.drawn.draw.getLsbD 0))).setReg lo (p.extractLsb' 0 32)

/-- The state once a 64-bit product is written (44_multiply.md R272, R275 to R278). -/
def State.withLongProduct (sf : Bool) (hi lo : Reg) (p : BitVec 64) (s : State) : State :=
  (s.withProductLow sf lo p).setReg hi (p.extractLsb' 32 32)

theorem writeMul_eq (sf : Bool) (rd : Reg) (p : Word) (s : State) :
    writeMul sf rd p s = advance (s.withProduct sf rd p) := by
  cases sf <;> rfl

theorem writeMulLong_eq (sf : Bool) (hi lo : Reg) (p : BitVec 64) (s : State) :
    writeMulLong sf hi lo p s = advance (s.withLongProduct sf hi lo p) := by
  cases sf <;> rfl

section
variable (sf : Bool) {rd : Reg} (p : Word) {s : State}

theorem State.withProduct_pc (hrd : rd ≠ 15#4) : (s.withProduct sf rd p).pc = s.pc := by
  rw [State.withProduct, State.setReg_pc_of_ne _ _ hrd, State.mulFlagged_pc]

theorem State.withProduct_flags : (s.withProduct sf rd p).cpsr.flags =
    if sf then mulFlags p (s.draw.getLsbD 0) s.cpsr.flags else s.cpsr.flags := by
  rw [State.withProduct, State.setReg_cpsr, State.mulFlagged_cpsr]

theorem AllKept.withProduct : AllKept s (s.withProduct sf rd p) :=
  (AllKept.mulFlagged ..).trans (.setReg ..)

/-- A multiply is done when the flags, with S, and then the register are written (44_multiply.md R272). -/
theorem MulDone.withProduct (hrd : rd ≠ 15#4) : MulDone sf rd p s (s.withProduct sf rd p).next4 := by
  rw [State.next4, State.withProduct_pc sf p hrd]
  refine ⟨?result, ?v, ?set, ?unset, rfl, ?regs, (AllKept.withProduct sf p).trans (.withPc ..)⟩
  case result => rw [State.readReg_withPc _ _ hrd, State.withProduct, State.readReg_setReg_same _ _ hrd]
  case regs => exact .setReg (.mulFlagged _ _ _ _ _) (by rw [State.mulFlagged_cpsr]) p hrd (List.mem_singleton_self rd)
  all_goals rw [State.withPc_cpsr, State.withProduct_flags]
  case v => cases sf <;> rfl
  case set => rintro rfl; exact ⟨rfl, rfl⟩
  case unset => rintro rfl; rfl

/-- A product for a register other than R15, where there is a next instruction: the multiply completes. -/
theorem writeMul_completes (hpc : s.pc ≠ 0xFFFFFFFC#32) (hrd : rd ≠ 15#4) :
    ∃ t, writeMul sf rd p s = .next t ∧ MulDone sf rd p s t := by
  rw [writeMul_eq]
  exact ⟨_, advance_of_ne ((State.withProduct_pc sf p hrd).trans_ne hpc), .withProduct sf p hrd⟩

end

section
variable (sf : Bool) {hi lo : Reg} (p : BitVec 64) {s : State}

theorem State.withLongProduct_pc (hhi : hi ≠ 15#4) (hlo : lo ≠ 15#4) : (s.withLongProduct sf hi lo p).pc = s.pc := by
  rw [State.withLongProduct, State.setReg_pc_of_ne _ _ hhi, State.withProductLow, State.setReg_pc_of_ne _ _ hlo,
    State.mulFlagged_pc]

theorem State.withLongProduct_flags : (s.withLongProduct sf hi lo p).cpsr.flags =
    if sf then mulLongFlags p (s.draw.getLsbD 0) (s.drawn.draw.getLsbD 0) else s.cpsr.flags := by
  rw [State.withLongProduct, State.setReg_cpsr, State.withProductLow, State.setReg_cpsr, State.mulFlagged_cpsr]

/-- The two registers together hold the product (44_multiply.md R275). -/
theorem State.withLongProduct_pair (hhi : hi ≠ 15#4) (hlo : lo ≠ 15#4) (hne : hi ≠ lo) :
    (s.withLongProduct sf hi lo p).readReg hi ++ (s.withLongProduct sf hi lo p).readReg lo = p := by
  rw [State.withLongProduct, State.readReg_setReg_same _ _ hhi, State.readReg_setReg_of_ne _ _ hhi hne.symm,
    State.withProductLow, State.readReg_setReg_same _ _ hlo]
  exact BitVec.extractLsb'_append_extractLsb'

theorem RegsKept.withLongProduct (hhi : hi ≠ 15#4) (hlo : lo ≠ 15#4) :
    RegsKept [hi, lo] s (s.withLongProduct sf hi lo p) := by
  have hlow : RegsKept [hi, lo] s (s.withProductLow sf lo p) :=
    .setReg (.mulFlagged _ _ _ _ _) (by rw [State.mulFlagged_cpsr]) _ hlo (by simp)
  exact hlow.setReg (by simp [State.withProductLow]) _ hhi (by simp)

theorem AllKept.withLongProduct : AllKept s (s.withLongProduct sf hi lo p) :=
  ((AllKept.mulFlagged ..).trans (.setReg ..)).trans (.setReg ..)

/-- A long multiply is done when the flags, with S, and then both registers are written (44_multiply.md R272). -/
theorem MulLongDone.withLongProduct (hhi : hi ≠ 15#4) (hlo : lo ≠ 15#4) (hne : hi ≠ lo) :
    MulLongDone sf hi lo p s (s.withLongProduct sf hi lo p).next4 := by
  rw [State.next4, State.withLongProduct_pc sf p hhi hlo]
  refine ⟨?result, ?set, ?unset, rfl, .withLongProduct sf p hhi hlo, (AllKept.withLongProduct sf p).trans (.withPc ..)⟩
  case result =>
    rw [State.readReg_withPc _ _ hhi, State.readReg_withPc _ _ hlo, State.withLongProduct_pair sf p hhi hlo hne]
  all_goals rw [State.withPc_cpsr, State.withLongProduct_flags]
  case set => rintro rfl; exact ⟨rfl, rfl⟩
  case unset => rintro rfl; rfl

/-- A product for two registers, neither of them R15, where there is a next instruction: the multiply completes. -/
theorem writeMulLong_completes (hpc : s.pc ≠ 0xFFFFFFFC#32) (hhi : hi ≠ 15#4) (hlo : lo ≠ 15#4) (hne : hi ≠ lo) :
    ∃ t, writeMulLong sf hi lo p s = .next t ∧ MulLongDone sf hi lo p s t := by
  rw [writeMulLong_eq]
  exact ⟨_, advance_of_ne ((State.withLongProduct_pc sf p hhi hlo).trans_ne hpc), .withLongProduct sf p hhi hlo hne⟩

end

/-! ### The product is exact -/

/-- The product of two words is that of the integers, modulo 2^32 (44_multiply.md R273). -/
theorem ofNat_toNat_mul_toNat (a b : Word) : BitVec.ofNat 32 (a.toNat * b.toNat) = a * b := by
  rw [BitVec.ofNat_mul, BitVec.ofNat_toNat, BitVec.ofNat_toNat, BitVec.setWidth_eq, BitVec.setWidth_eq]

/-- So is that with a sum (44_multiply.md R274). -/
theorem ofNat_toNat_mul_toNat_add_toNat (a b d : Word) :
    BitVec.ofNat 32 (a.toNat * b.toNat + d.toNat) = a * b + d := by
  rw [BitVec.ofNat_add, ofNat_toNat_mul_toNat, BitVec.ofNat_toNat, BitVec.setWidth_eq]

/-- The unsigned long product, with its sum, is that of the integers (44_multiply.md R275, R276). -/
theorem unsignedLong_eq_ofInt (a b : Word) (acc : Nat) :
    unsignedLong a b acc = BitVec.ofInt 64 (a.toNat * b.toNat + acc) := by
  rw [unsignedLong, ← BitVec.ofInt_natCast, Int.natCast_add, Int.natCast_mul]

/-! ### The statements -/

/-- Operands that are not refused are allowed, and an instruction whose condition holds then has its effect. -/
theorem whenPassed_allowing {c : Cond} {s : State} {ok : Bool} {r : Refusal} {k : Result}
    (hc : s.cpsr.flags.pass c = true) (h : ¬ ok = false) : whenPassed c s (allowing ok r k) = k :=
  (whenPassed_of_pass hc).trans (allowing_of_ok (Bool.eq_true_of_not_eq_false h))

/-- Settles O20. -/
theorem multiplyResult : Obligations.MultiplyResult := by
  rintro c sf rd rn rs rm s ⟨hc, hpc⟩ hrd hrs hrm hne
  refine ⟨?mul, fun hrn => ?mla⟩
  case mul =>
    have hexec : exec (.mul c sf rd rs rm) s = writeMul sf rd (s.readReg rm * s.readReg rs) s :=
      whenPassed_allowing hc (by simp [mulOk_eq_false_iff, *])
    rw [hexec, ofNat_toNat_mul_toNat]
    exact writeMul_completes sf _ hpc hrd
  case mla =>
    have hexec : exec (.mla c sf rd rn rs rm) s = writeMul sf rd (s.readReg rm * s.readReg rs + s.readReg rn) s :=
      whenPassed_allowing hc (by simp [mlaOk_eq_false_iff, *])
    rw [hexec, ofNat_toNat_mul_toNat_add_toNat]
    exact writeMul_completes sf _ hpc hrd

/-- Settles O21: the four check the same operands and write their product in the same way. -/
theorem longMultiplyResult : Obligations.LongMultiplyResult := by
  rintro c sf hi lo rs rm s ⟨hc, hpc⟩ hhi hlo hrs hrm hne hhirm hlorm a b acc rfl rfl rfl
  have hok : ¬ mulLongOk hi lo rs rm = false := by simp [mulLongOk_eq_false_iff, *]
  have completes {i : Instr} {p q : BitVec 64} (hpq : p = q)
      (hexec : exec i s = whenPassed c s (allowing (mulLongOk hi lo rs rm) .multiplyOperands (writeMulLong sf hi lo p s))) :
      ∃ t, exec i s = .next t ∧ MulLongDone sf hi lo q s t := by
    rw [hexec, whenPassed_allowing hc hok, hpq]
    exact writeMulLong_completes sf q hpc hhi hlo hne
  refine ⟨completes ?umull rfl, completes (unsignedLong_eq_ofInt _ _ _) rfl, completes ?smull rfl, completes rfl rfl⟩
  case umull => rw [unsignedLong_eq_ofInt, Nat.cast_zero, add_zero]
  case smull => rw [signedLong, add_zero]

end Sys2Proof.Machine
end

section
/-! PROOF. What the transfers share: the operands of one that is accepted, and what is kept through an access, the write of
the base and the step to the next instruction (45_single_data_transfer.md R292, R293, R302). -/

namespace Sys2Proof.Machine

/-! ### Operands that are accepted -/

/-- A transfer that writes back does not load or store its base (45_single_data_transfer.md R293 b). -/
theorem rd_ne_of_baseOk {ix : Indexing} {rn rd : Reg} (h : baseOk ix rn rd = true) (hw : writesBack ix = true) :
    rn ≠ rd := by
  rintro rfl
  simp [(baseOk_eq_false_iff ix rn rn).2 ⟨hw, .inr rfl⟩] at h

theorem baseOk_of_singleOk {k : SingleKind} {o : SingleOffset} {ix : Indexing} {rn rd : Reg}
    (h : singleOk k o ix rn rd = true) : baseOk (k.indexing ix) rn rd = true := by
  simp only [singleOk, Bool.and_eq_true] at h
  exact h.1.1

/-- Only LDR and STR may have R15 as their register (45_single_data_transfer.md R293 e). -/
theorem rd_ne_of_singleOk {k : SingleKind} {o : SingleOffset} {ix : Indexing} {rn rd : Reg}
    (h : singleOk k o ix rn rd = true) (hk : k ≠ .ldr ∧ k ≠ .str) : rd ≠ 15#4 := by
  rintro rfl
  simp [(singleOk_eq_false_iff ix rn _ k o (writesBack_indexing_iff ix k)).2 (.inr (.inr ⟨rfl, hk⟩))] at h

/-! ### What is kept -/

section
variable {s t u : State}

theorem RestKept.trans (h : RestKept s t) (k : RestKept t u) : RestKept s u where
  control := ⟨k.control.i.trans h.control.i, k.control.f.trans h.control.f, k.control.mode.trans h.control.mode,
    k.control.spsr.trans h.control.spsr, k.control.cp15.trans h.control.cp15⟩
  outside := ⟨k.outside.oldMaps.trans h.outside.oldMaps, k.outside.plat.trans h.outside.plat,
    k.outside.env.trans h.outside.env⟩
  hazard := k.hazard.trans h.hazard

theorem MemKept.trans (h : MemKept s t) (k : MemKept t u) : MemKept s u :=
  ⟨fun a => (k.1 a).trans (h.1 a), k.2.trans h.2⟩

/-- The mappings on record set aside, the rest is kept as before. -/
theorem RestKept.withOldMaps (h : RestKept s t) (x : List OldMapping) :
    RestKept (s.withOldMaps x) (t.withOldMaps x) where
  control := ⟨h.control.i, h.control.f, h.control.mode, h.control.spsr, h.control.cp15⟩
  outside := ⟨rfl, h.outside.plat, h.outside.env⟩
  hazard := h.hazard

theorem SameButLookup.restKept (h : SameButLookup s t) : RestKept s t where
  control := ⟨by rw [h.cpsr], by rw [h.cpsr], by rw [h.cpsr], h.spsr, h.cp15⟩
  outside := ⟨h.oldMaps, h.plat, h.env⟩
  hazard := h.bankHazard

theorem SameButLookup.memKept (h : SameButLookup s t) : MemKept s t := ⟨fun a => by rw [h.mem], h.stale⟩

theorem SameButLookup.regsKept (h : SameButLookup s t) (rs : List Reg) : RegsKept rs s t := fun _ _ => by rw [h.regs]

/-- An access that goes through changes the TLB and the draws only (20_memory.md R90). -/
theorem SameButLookup.of_reach_ok {kind : AccessKind} {priv : Bool} {n : Nat} {va : Word} {r : Reached}
    (h : reach kind priv n va s = .ok r t) : SameButLookup s t := by
  have hw := Within.reach kind priv n va s
  rw [h] at hw
  exact hw.1

/-- So does one that aborts. -/
theorem SameButLookup.of_reach_abort {kind : AccessKind} {priv : Bool} {n : Nat} {va : Word} {f : Option FaultStatus}
    (h : reach kind priv n va s = .abort f t) : SameButLookup s t := by
  have hw := Within.reach kind priv n va s
  rw [h] at hw
  exact hw.1

end

/-! ### The write of the base -/

section
variable (s : State) (ix : Indexing) (rn : Reg) (base : Word)

@[simp] theorem State.writeBack_cpsr : (s.writeBack ix rn base).cpsr = s.cpsr := by
  unfold State.writeBack; split <;> simp

@[simp] theorem State.writeBack_mem : (s.writeBack ix rn base).mem = s.mem := by
  unfold State.writeBack; split <;> simp

theorem AllKept.writeBack : AllKept s (s.writeBack ix rn base) := by
  obtain ⟨-, h⟩ | ⟨-, h⟩ := State.writeBack_cases s ix rn base <;> rw [h]
  · exact .setReg ..
  · apply AllKept.of_eq <;> rfl

end

/-- The base that is written back reads as it was written (45_single_data_transfer.md R292). -/
theorem State.readReg_writeBack (s : State) {ix : Indexing} {rn : Reg} (base : Word) (hw : writesBack ix = true)
    (hrn : rn ≠ 15#4) : (s.writeBack ix rn base).readReg rn = base := by
  rw [State.writeBack, if_pos hw, State.readReg_setReg_same _ _ hrn]

theorem RegsKept.writeBack {rs : List Reg} {s t : State} (hr : RegsKept rs s t) (hm : t.cpsr.mode = s.cpsr.mode)
    {ix : Indexing} {rn : Reg} (base : Word) (h : writesBack ix = true → rn ≠ 15#4 ∧ rn ∈ rs) :
    RegsKept rs s (t.writeBack ix rn base) := by
  obtain ⟨hw, he⟩ | ⟨-, he⟩ := State.writeBack_cases t ix rn base <;> rw [he]
  · exact hr.setReg hm base (h hw).1 (h hw).2
  · exact hr

/-- The base and the PC are written to a state with the registers and the CPSR of `s`: the base is as written, no other
register and nothing of the CPSR changes (45_single_data_transfer.md R302). -/
theorem writeBack_withPc_spec {s t : State} {ix : Indexing} {rn : Reg} (base x : Word) (hregs : t.regs = s.regs)
    (hcpsr : t.cpsr = s.cpsr) (hrn : writesBack ix = true → rn ≠ 15#4) :
    (writesBack ix = true → ((t.writeBack ix rn base).withPc x).readReg rn = base) ∧
      RegsKept (if writesBack ix then [rn] else []) s ((t.writeBack ix rn base).withPc x) ∧
      ((t.writeBack ix rn base).withPc x).cpsr = s.cpsr := by
  refine ⟨fun hw => ?base, ?regs, by rw [State.withPc_cpsr, State.writeBack_cpsr, hcpsr]⟩
  case base => rw [State.readReg_withPc _ _ (hrn hw), State.readReg_writeBack _ _ hw (hrn hw)]
  case regs =>
    exact RegsKept.writeBack (fun _ _ => by rw [hregs]) (by rw [hcpsr]) base fun hw => ⟨hrn hw, by simp [hw]⟩

end Sys2Proof.Machine
end

section
/-! PROOF. O25: the addresses of the transfers and the base written back (45_single_data_transfer.md R291, R292, R304;
46_halfword_signed_transfer.md R320, R322; 47_block_data_transfer.md R341). -/

namespace Sys2Proof.Machine

/-! ### Single and halfword transfers -/

theorem offsetAddr_spec (ix : Indexing) (base off : Word) :
    (ix.u = true → offsetAddr ix base off = base + off) ∧ (ix.u = false → offsetAddr ix base off = base - off) := by
  constructor <;> intro h <;> simp [offsetAddr, h]

/-- The address is that of the offset applied when pre-indexed, the base when post-indexed (45_single_data_transfer.md
R292). -/
theorem transferAddr_spec (ix : Indexing) (base off : Word) :
    (ix.p = true → transferAddr ix base off = offsetAddr ix base off) ∧
      (ix.p = false → transferAddr ix base off = base) := by
  constructor <;> intro h <;> simp [transferAddr, h]

/-- The immediate offset is zero-extended, the register offset the shifter's result (45_single_data_transfer.md R291). -/
theorem SingleOffset.value_eq {o : SingleOffset} {s : State} {off : Word}
    (h : (∃ x : BitVec 12, o = .imm x ∧ off = BitVec.ofNat 32 x.toNat) ∨
      (∃ x : ShiftedReg, o = .reg x ∧ off = (shiftedOperand x s).op2)) : o.value s = off := by
  rcases h with ⟨x, rfl, rfl⟩ | ⟨x, rfl, rfl⟩
  · exact (BitVec.ofNat_toNat 32 x).symm
  · rfl

/-- The same of a halfword transfer (46_halfword_signed_transfer.md R320). -/
theorem HalfOffset.value_eq {o : HalfOffset} {s : State} {off : Word}
    (h : (∃ x : BitVec 8, o = .imm x ∧ off = BitVec.ofNat 32 x.toNat) ∨ (∃ rm : Reg, o = .reg rm ∧ off = s.readReg rm)) :
    o.value s = off := by
  rcases h with ⟨x, rfl, rfl⟩ | ⟨rm, rfl, rfl⟩
  · exact (BitVec.ofNat_toNat 32 x).symm
  · rfl

/-- A T form keeps the direction of the offset (45_single_data_transfer.md R304). -/
theorem SingleKind.indexing_u (k : SingleKind) (ix : Indexing) : (k.indexing ix).u = ix.u := by
  unfold SingleKind.indexing
  split <;> rfl

theorem SingleKind.indexing_of_not_translate {k : SingleKind} (ix : Indexing) (h : k.translate = false) :
    k.indexing ix = ix := by
  simp only [SingleKind.indexing, h, Bool.false_eq_true, if_false]

/-- A T form is post-indexed (45_single_data_transfer.md R304). -/
theorem SingleKind.indexing_of_translate {k : SingleKind} (ix : Indexing) (h : k.translate = true) :
    k.indexing ix = translateIndexing ix.u := by
  simp only [SingleKind.indexing, h, if_true]

/-! ### Block transfers -/

/-- The registers of a list are as many as its bits that are set (30_encoding.md R155). -/
theorem length_regsOf (list : BitVec 16) :
    (regsOf list).length = ((List.range 16).filter fun k => list.getLsbD k).length := by
  rw [show List.range 16 = allRegs.map BitVec.toNat by decide, List.filter_map, List.length_map]
  rfl

/-- Settles O25: each address is its definition, by the bits P and U. -/
theorem transferAddresses : Obligations.TransferAddresses := by
  refine ⟨?single, ?half, ?block⟩
  case single =>
    rintro k o ix rn s base off rfl hoff
    obtain ⟨hadd, hsub⟩ := offsetAddr_spec (k.indexing ix) (s.readReg rn) off
    obtain ⟨hpre, hpost⟩ := transferAddr_spec (k.indexing ix) (s.readReg rn) off
    rw [k.indexing_u] at hadd hsub
    simp only [singleBase, singleAddr, SingleOffset.value_eq hoff]
    refine ⟨hadd, hsub, fun hk => ?plain, fun hk => ?translate⟩
    case plain =>
      have hix : k.indexing ix = ix := k.indexing_of_not_translate ix (by rcases hk with rfl | rfl | rfl | rfl <;> rfl)
      rw [hix] at hadd hsub hpre hpost ⊢
      exact ⟨fun hp hu => (hpre hp).trans (hadd hu), fun hp hu => (hpre hp).trans (hsub hu), hpost, writesBack_iff ix⟩
    case translate =>
      have hix : k.indexing ix = translateIndexing ix.u :=
        k.indexing_of_translate ix (by rcases hk with rfl | rfl | rfl | rfl <;> rfl)
      rw [hix] at hpost ⊢
      exact ⟨hpost rfl, rfl⟩
  case half =>
    rintro o ix rn s base off rfl hoff
    obtain ⟨hadd, hsub⟩ := offsetAddr_spec ix (s.readReg rn) off
    obtain ⟨hpre, hpost⟩ := transferAddr_spec ix (s.readReg rn) off
    simp only [halfBase, halfAddr, HalfOffset.value_eq hoff]
    exact ⟨hadd, hsub, fun hp hu => (hpre hp).trans (hadd hu), fun hp hu => (hpre hp).trans (hsub hu), hpost,
      writesBack_iff ix⟩
  case block =>
    rintro sBit wBit base list n rfl
    rw [← length_regsOf]
    exact ⟨⟨rfl, rfl⟩, ⟨rfl, rfl⟩, ⟨rfl, rfl⟩, ⟨rfl, rfl⟩⟩

end Sys2Proof.Machine
end

section
/-! PROOF. O26, O27, O30: the loads (45_single_data_transfer.md R292, R295 to R297, R299, R302, R304). First the state that
a load leaves, for any value and width of its access. -/

namespace Sys2Proof.Machine

/-! ### A load that goes on -/

section
variable {ix : Indexing} {rn rd : Reg} {s u : State} (base v : Word)

/-- A load is done when, after its access, the base, the register and then the PC are written (45_single_data_transfer.md
R302). -/
theorem LoadDone.written (hl : SameButLookup s u) (hok : baseOk ix rn rd = true) (hrd : rd ≠ 15#4) :
    LoadDone ix rn rd base v s ((u.writeBack ix rn base).setReg rd v).next4 := by
  have hrn := base_ne_of_baseOk hok
  have hkept : AllKept u ((u.writeBack ix rn base).setReg rd v).next4 :=
    ((AllKept.writeBack ..).trans (.setReg ..)).trans (.withPc ..)
  refine ⟨?value, fun hw => ?base, ?pc, ?regs, ?flags, hl.restKept.trans hkept.rest, hl.memKept.trans hkept.mem⟩
  case value => rw [State.next4, State.readReg_withPc _ _ hrd, State.readReg_setReg_same _ _ hrd]
  case base =>
    rw [State.next4, State.readReg_withPc _ _ (hrn hw), State.readReg_setReg_of_ne _ _ hrd (rd_ne_of_baseOk hok hw),
      State.readReg_writeBack _ _ hw (hrn hw)]
  case pc => rw [State.next4, State.withPc_pc, State.setReg_pc_of_ne _ _ hrd, State.writeBack_pc _ _ hrn, hl.pc]
  case regs =>
    have hwritten : RegsKept (if writesBack ix then [rn, rd] else [rd]) s (u.writeBack ix rn base) :=
      (hl.regsKept _).writeBack (by rw [hl.cpsr]) base fun hw => ⟨hrn hw, by simp [hw]⟩
    exact hwritten.setReg (by rw [State.writeBack_cpsr, hl.cpsr]) v hrd (by split <;> simp)
  case flags => simp only [State.next4, State.withPc_cpsr, State.setReg_cpsr, State.writeBack_cpsr, hl.cpsr]

/-- After its access a load goes on, where there is a next instruction. -/
theorem load_completes (hl : SameButLookup s u) (hpc : s.pc ≠ 0xFFFFFFFC#32) (hok : baseOk ix rn rd = true)
    (hrd : rd ≠ 15#4) :
    ∃ t, advance ((u.writeBack ix rn base).setReg rd v) = .next t ∧ LoadDone ix rn rd base v s t := by
  have hpc' : ((u.writeBack ix rn base).setReg rd v).pc = s.pc := by
    rw [State.setReg_pc_of_ne _ _ hrd, State.writeBack_pc _ _ (base_ne_of_baseOk hok), hl.pc]
  exact ⟨_, advance_of_ne (hpc'.trans_ne hpc), .written base v hl hok hrd⟩

end

/-! ### Words and bytes -/

section
variable {priv : Bool} {ix : Indexing} {rn rd : Reg} {offset a : Word} {s u : State} {r : Reached}

/-- A word load whose address is checked is its access, and what follows it (45_single_data_transfer.md R295, R299). -/
theorem transferLoadWord_of_checked (ha : a = transferAddr ix (s.readReg rn) offset)
    (hcheck : s.cp15.control.a = true → a.extractLsb' 0 2 = 0#2) (hpc : rd = 15#4 → a.extractLsb' 0 2 = 0#2) :
    transferLoadWord priv ix rn rd offset s = (loadWord .read priv a s).run a fun data s' =>
      if isPc rd then loadPc data (s'.writeBack ix rn (offsetAddr ix (s.readReg rn) offset))
      else advance ((s'.writeBack ix rn (offsetAddr ix (s.readReg rn) offset)).setReg rd (rotateLoaded a data)) := by
  subst ha
  have hpc' := misalignedWord_and_eq_false fun h => hpc ((isPc_iff rd).1 h)
  simp only [transferLoadWord, misalignedWord_and_eq_false hcheck, hpc', Bool.false_eq_true, if_false]

theorem transferLoadWord_completes (hpc : s.pc ≠ 0xFFFFFFFC#32) (hok : baseOk ix rn rd = true) (hrd : rd ≠ 15#4)
    (ha : a = transferAddr ix (s.readReg rn) offset) (hcheck : s.cp15.control.a = true → a.extractLsb' 0 2 = 0#2)
    (hr : reach .read priv 4 (wordAligned a) s = .ok r u) :
    ∃ t, transferLoadWord priv ix rn rd offset s = .next t ∧
      LoadDone ix rn rd (offsetAddr ix (s.readReg rn) offset) (rotateLoaded a (s.mem.readWord (wordCell r.pa))) s t := by
  have hl := SameButLookup.of_reach_ok hr
  have hd : ¬ isPc rd = true := mt (isPc_iff rd).1 hrd
  rw [transferLoadWord_of_checked ha hcheck fun h => absurd h hrd, Access.run_ok (loadWord_of_reach hr), if_neg hd, hl.mem]
  exact load_completes _ _ hl hpc hok hrd

theorem transferLoadByte_completes (hpc : s.pc ≠ 0xFFFFFFFC#32) (hok : baseOk ix rn rd = true) (hrd : rd ≠ 15#4)
    (hr : reach .read priv 1 (transferAddr ix (s.readReg rn) offset) s = .ok r u) :
    ∃ t, transferLoadByte priv ix rn rd offset s = .next t ∧
      LoadDone ix rn rd (offsetAddr ix (s.readReg rn) offset)
        ((s.mem.read (byteCell s.cp15.control.b r.pa)).setWidth 32) s t := by
  have hl := SameButLookup.of_reach_ok hr
  rw [transferLoadByte, Access.run_ok (loadByte_of_reach hr), hl.mem, hl.cp15]
  exact load_completes _ _ hl hpc hok hrd

end

/-- Settles O26. -/
theorem wordLoad : Obligations.WordLoad := by
  rintro k o c ix rn rd s u r hk ⟨hc, hpc⟩ hok hrd a ha hcheck hr
  have hload : singleEffect k (k.priv s) (k.indexing ix) rn rd (o.value s) s =
      transferLoadWord (k.priv s) (k.indexing ix) rn rd (o.value s) s := by
    rcases hk with rfl | rfl <;> rfl
  rw [exec_single k o hc hok, hload]
  exact transferLoadWord_completes hpc (baseOk_of_singleOk hok) hrd ha hcheck hr

/-- Settles O27: a byte load may not name R15. -/
theorem byteLoad : Obligations.ByteLoad := by
  rintro k o c ix rn rd s u r hk ⟨hc, hpc⟩ hok hr
  have hload : singleEffect k (k.priv s) (k.indexing ix) rn rd (o.value s) s =
      transferLoadByte (k.priv s) (k.indexing ix) rn rd (o.value s) s := by
    rcases hk with rfl | rfl <;> rfl
  have hrd : rd ≠ 15#4 := rd_ne_of_singleOk hok (by rcases hk with rfl | rfl <;> decide)
  rw [exec_single k o hc hok, hload]
  exact transferLoadByte_completes hpc (baseOk_of_singleOk hok) hrd hr

/-! ### A load of R15 -/

section
variable {priv : Bool} {ix : Indexing} {rn : Reg} {offset a : Word} {s u : State} {r : Reached}

/-- A load of R15 from a misaligned address, with alignment checking off, is refused (45_single_data_transfer.md R299; D2). -/
theorem transferLoadWord_pc_misaligned (ha : a = transferAddr ix (s.readReg rn) offset)
    (hoff : s.cp15.control.a = false) (hmis : a.extractLsb' 0 2 ≠ 0#2) :
    transferLoadWord priv ix rn 15#4 offset s = .refused .misalignedPcLoad := by
  subst ha
  simp [transferLoadWord, hoff, misalignedWord, hmis, isPc]

/-- The word that a load of R15 loads is handed to the branch, after the base is written (45_single_data_transfer.md R299). -/
theorem transferLoadWord_pc (ha : a = transferAddr ix (s.readReg rn) offset) (hword : a.extractLsb' 0 2 = 0#2)
    (hr : reach .read priv 4 (wordAligned a) s = .ok r u) :
    transferLoadWord priv ix rn 15#4 offset s =
      loadPc (s.mem.readWord (wordCell r.pa)) (u.writeBack ix rn (offsetAddr ix (s.readReg rn) offset)) := by
  rw [transferLoadWord_of_checked ha (fun _ => hword) (fun _ => hword), Access.run_ok (loadWord_of_reach hr),
    if_pos ((isPc_iff _).2 rfl), (SameButLookup.of_reach_ok hr).mem]

/-- A loaded word that is no word address is refused (45_single_data_transfer.md R299; D25, log 27). -/
theorem loadPc_of_low_bits {v : Word} (s : State) (h : v.extractLsb' 0 2 ≠ 0#2) : loadPc v s = .refused .pcLowBits := by
  simp [loadPc, misalignedWord, h]

/-- A word address is branched to (45_single_data_transfer.md R299). -/
theorem loadPc_of_word {v : Word} (s : State) (h : v.extractLsb' 0 2 = 0#2) : loadPc v s = .next (s.withPc v) := by
  simp [loadPc, misalignedWord, h, jump, (wordAligned_eq_self_iff v).2 h]

end

/-- Settles O30: a load of R15 is refused or hands the loaded word to `loadPc`, which branches or refuses it. -/
theorem SingleTransfer.loadPc : Obligations.LoadPc := by
  rintro o c ix rn s u r hc hok a i ha rfl
  rw [exec_single .ldr o hc hok]
  refine ⟨transferLoadWord_pc_misaligned ha, fun hword hr => ?_⟩
  rintro v rfl
  have hload := transferLoadWord_pc ha hword hr
  have hl := SameButLookup.of_reach_ok hr
  obtain ⟨hbase, hregs, hcpsr⟩ := writeBack_withPc_spec (singleBase .ldr o ix rn s) (s.mem.readWord (wordCell r.pa))
    hl.regs hl.cpsr (base_ne_of_baseOk (baseOk_of_singleOk hok))
  have hkept := (AllKept.writeBack u ix rn (singleBase .ldr o ix rn s)).trans
    (.withPc _ (s.mem.readWord (wordCell r.pa)))
  exact ⟨fun hlow => hload.trans (loadPc_of_low_bits _ hlow), fun hv => ⟨_, hload.trans (loadPc_of_word _ hv), rfl,
    hbase, hregs, hcpsr, hl.restKept.trans hkept.rest, hl.memKept.trans hkept.mem⟩⟩

end Sys2Proof.Machine
end

section
/-! PROOF. O28, O29: the stores (45_single_data_transfer.md R292, R298, R300 to R302, R304; 20_memory.md R91, R114). First
what awaits a barrier after a store, then the state that one leaves, for any width. -/

namespace Sys2Proof.Machine

/-! ### What a store leaves -/

section
variable (s : State) (r : Reached) (m : Memory)

@[simp] theorem State.stored_regs : (s.stored r m).regs = s.regs := by
  rw [State.stored_eq]; rfl

@[simp] theorem State.stored_cpsr : (s.stored r m).cpsr = s.cpsr := by
  rw [State.stored_eq]; rfl

/-- A store keeps all but memory, what awaits a barrier and the mappings on record. -/
theorem RestKept.stored : RestKept s ((s.stored r m).withOldMaps s.oldMaps) := by
  rw [State.stored_eq]
  exact ⟨⟨rfl, rfl, rfl, rfl, rfl⟩, ⟨rfl, rfl, rfl⟩, rfl⟩

/-- ROM keeps its bytes (20_memory.md R91). -/
theorem State.stored_of_rom (h : r.rom = true) : s.stored r m = s := by
  rw [State.stored, if_pos h]

end

section
variable {s t u v : State} {r : Reached} {m : Memory}

theorem SameButLookup.staleAt (h : SameButLookup s t) : staleAt t = staleAt s := by rw [h]; rfl

/-- What may be a word of the tables, and the mapping, do not change with a look in the TLB but for its entries. -/
theorem SameButLookup.remapsAt (h : SameButLookup s t) (pa : Word) :
    remapsAt t pa = (s.cp15.control.m && tableWord s pa) := by rw [h]; rfl

theorem Awaits.stored (hl : SameButLookup s u) : Awaits u r s (u.stored r m) where
  word := fun hram va => staleAt_stored u m hram va
  others := fun va pa hpa => by
    rw [← hl.staleAt]
    cases hrom : r.rom with
    | true => rw [State.stored_of_rom u r m hrom]
    | false => exact staleAt_stored_of_ne u r m va (hpa hrom)
  maps := by
    rw [State.stored_oldMaps, hl.remapsAt, hl.oldMaps, State.mapping, hl.mem, hl.cp15]
    cases r.rom <;> cases hm : s.cp15.control.m <;> simp [*]

/-- What awaits a barrier goes by the coherence set and the mappings on record alone. -/
theorem Awaits.congr (h : Awaits u r s v) (hstale : t.stale = v.stale) (hold : t.oldMaps = v.oldMaps) : Awaits u r s t where
  word := fun hram va => by rw [Machine.staleAt, hstale]; exact h.word hram va
  others := fun va pa hpa => by rw [Machine.staleAt, hstale]; exact h.others va pa hpa
  maps := hold.trans h.maps

end

/-! ### A store that goes on -/

section
variable {ix : Indexing} {rn : Reg} {lo n : Nat} {s u : State} {r : Reached} {m : Memory} (base : Word)

/-- A store is done when, after its write, the base and then the PC are written (45_single_data_transfer.md R302). -/
theorem StoreDone.written (hl : SameButLookup s u) (hrn : writesBack ix = true → rn ≠ 15#4)
    (hm : ∀ a, ¬ inCells lo n a → m.read a = s.mem.read a) :
    StoreDone ix rn base lo n u r s ((u.stored r m).writeBack ix rn base).next4 := by
  have hkept : AllKept (u.stored r m) ((u.stored r m).writeBack ix rn base).next4 :=
    (AllKept.writeBack ..).trans (.withPc ..)
  have hpc : ((u.stored r m).writeBack ix rn base).pc = s.pc := by
    rw [State.writeBack_pc _ _ hrn, State.stored_pc, hl.pc]
  obtain ⟨hbase, hregs, hcpsr⟩ := writeBack_withPc_spec base (((u.stored r m).writeBack ix rn base).pc + 4#32)
    ((u.stored_regs r m).trans hl.regs) ((u.stored_cpsr r m).trans hl.cpsr) hrn
  refine ⟨hbase, by rw [State.next4, hpc]; rfl, hregs, congrArg Cpsr.flags hcpsr, ?rest, fun a ha => ?outside,
    fun hrom => ?rom, (Awaits.stored hl).congr hkept.mem.2 hkept.rest.outside.oldMaps⟩
  case rest =>
    rw [← hl.oldMaps]
    exact (hl.restKept.trans (.stored u r m)).trans (hkept.rest.withOldMaps _)
  case outside =>
    rw [hkept.mem.1, State.stored_mem]
    split
    · rw [hl.mem]
    · exact hm a ha
  case rom =>
    have hstored : MemKept s (u.stored r m) := by rw [State.stored_of_rom u r m hrom]; exact hl.memKept
    exact hstored.trans hkept.mem

/-- After its write a store goes on, where there is a next instruction; with RAM there the memory is what was written. -/
theorem store_completes (hl : SameButLookup s u) (hpc : s.pc ≠ 0xFFFFFFFC#32) (hrn : writesBack ix = true → rn ≠ 15#4)
    (hm : ∀ a, ¬ inCells lo n a → m.read a = s.mem.read a) :
    ∃ t, advance ((u.stored r m).writeBack ix rn base) = .next t ∧ StoreDone ix rn base lo n u r s t ∧
      (r.rom = false → t.mem = m) := by
  have hpc' : ((u.stored r m).writeBack ix rn base).pc = s.pc := by
    rw [State.writeBack_pc _ _ hrn, State.stored_pc, hl.pc]
  refine ⟨_, advance_of_ne (hpc'.trans_ne hpc), .written base hl hrn hm, fun hram => ?_⟩
  rw [State.next4, State.withPc_mem, State.writeBack_mem, State.stored_mem, hram]
  rfl

end

/-! ### Words and bytes -/

/-- A word write changes the four cells of its word only (20_memory.md R91). -/
theorem Memory.read_writeWord_outside (m : Memory) (lo : Nat) (v : Word) {a : Nat} (h : ¬ inCells lo 4 a) :
    (m.writeWord lo v).read a = m.read a :=
  Memory.read_writeWord_of_ne m v (by rw [inCells] at h; omega)

/-- A byte write changes its own cell only (20_memory.md R91). -/
theorem Memory.read_write_outside (m : Memory) (lo : Nat) (v : Byte) {a : Nat} (h : ¬ inCells lo 1 a) :
    (m.write lo v).read a = m.read a :=
  Memory.read_write_of_ne m v (by rw [inCells] at h; omega)

/-- The word that a word access reaches ends in the address space (20_memory.md R87). -/
theorem wordCell_lt_of_reach {kind : AccessKind} {priv : Bool} {n : Nat} {a : Word} {s u : State} {r : Reached}
    (h : reach kind priv n (wordAligned a) s = .ok r u) : wordCell r.pa + 3 < 2 ^ 32 := by
  have hlow := reach_low h
  rw [(wordAligned_eq_self_iff _).1 (wordAligned_idem a), extractLsb'_two_eq_zero_iff] at hlow
  have hlt := r.pa.isLt
  rw [wordCell]
  omega

theorem State.storeValueOf_of_ne {s : State} {rd : Reg} (h : rd ≠ 15#4) :
    s.storeValueOf s.cpsr.mode rd = s.readReg rd := if_neg (mt (isPc_iff rd).1 h)

theorem State.storeValueOf_pc (s : State) (m : Mode) : s.storeValueOf m 15#4 = s.storedPc := rfl

section
variable {priv : Bool} {ix : Indexing} {rn rd : Reg} {offset a : Word} {s u : State} {r : Reached}

/-- A word store whose address is checked is its access, and what follows it (45_single_data_transfer.md R298, R300). -/
theorem transferStoreWord_of_checked (ha : a = transferAddr ix (s.readReg rn) offset)
    (hcheck : s.cp15.control.a = true → a.extractLsb' 0 2 = 0#2) :
    transferStoreWord priv ix rn rd offset s =
      (storeWord priv a (s.storeValueOf s.cpsr.mode rd) s).run a fun _ s' =>
        advance (s'.writeBack ix rn (offsetAddr ix (s.readReg rn) offset)) := by
  subst ha
  simp only [transferStoreWord, misalignedWord_and_eq_false hcheck, Bool.false_eq_true, if_false]

theorem transferStoreWord_completes (hpc : s.pc ≠ 0xFFFFFFFC#32) (hrn : writesBack ix = true → rn ≠ 15#4)
    (hwf : s.mem.wf = true) (ha : a = transferAddr ix (s.readReg rn) offset)
    (hcheck : s.cp15.control.a = true → a.extractLsb' 0 2 = 0#2)
    (hr : reach .write priv 4 (wordAligned a) s = .ok r u) :
    ∃ t, transferStoreWord priv ix rn rd offset s = .next t ∧
      StoreDone ix rn (offsetAddr ix (s.readReg rn) offset) (wordCell r.pa) 4 u r s t ∧
      (r.rom = false → t.mem.readWord (wordCell r.pa) = s.storeValueOf s.cpsr.mode rd) := by
  have hl := SameButLookup.of_reach_ok hr
  rw [transferStoreWord_of_checked ha hcheck, Access.run_ok (storeWord_of_reach _ hr), hl.mem]
  obtain ⟨t, ht, hdone, hmem⟩ := store_completes (offsetAddr ix (s.readReg rn) offset) hl hpc hrn
    fun _ => s.mem.read_writeWord_outside (wordCell r.pa) (s.storeValueOf s.cpsr.mode rd)
  exact ⟨t, ht, hdone, fun hram => by
    rw [hmem hram, Memory.readWord_writeWord _ _ _ hwf (wordCell_lt_of_reach hr)]⟩

theorem transferStoreByte_completes (hpc : s.pc ≠ 0xFFFFFFFC#32) (hrn : writesBack ix = true → rn ≠ 15#4)
    (hwf : s.mem.wf = true) (hr : reach .write priv 1 (transferAddr ix (s.readReg rn) offset) s = .ok r u) :
    ∃ t, transferStoreByte priv ix rn rd offset s = .next t ∧
      StoreDone ix rn (offsetAddr ix (s.readReg rn) offset) (byteCell s.cp15.control.b r.pa) 1 u r s t ∧
      (r.rom = false → t.mem.read (byteCell s.cp15.control.b r.pa) = (s.readReg rd).extractLsb' 0 8) := by
  have hl := SameButLookup.of_reach_ok hr
  rw [transferStoreByte, Access.run_ok (storeByte_of_reach _ hr), hl.mem, hl.cp15]
  obtain ⟨t, ht, hdone, hmem⟩ := store_completes (offsetAddr ix (s.readReg rn) offset) hl hpc hrn
    fun _ => s.mem.read_write_outside (byteCell s.cp15.control.b r.pa) ((s.readReg rd).extractLsb' 0 8)
  exact ⟨t, ht, hdone, fun hram => by rw [hmem hram, Memory.read_write_same _ _ _ hwf]⟩

end

/-- Settles O28. -/
theorem wordStore : Obligations.WordStore := by
  rintro k o c ix rn rd s u r hk hwf ⟨hc, hpc⟩ hok a ha hcheck hr
  have hstore : singleEffect k (k.priv s) (k.indexing ix) rn rd (o.value s) s =
      transferStoreWord (k.priv s) (k.indexing ix) rn rd (o.value s) s := by
    rcases hk with rfl | rfl <;> rfl
  rw [exec_single k o hc hok, hstore]
  obtain ⟨t, ht, hdone, hvalue⟩ :=
    transferStoreWord_completes (rd := rd) hpc (base_ne_of_baseOk (baseOk_of_singleOk hok)) hwf ha hcheck hr
  exact ⟨t, ht, hdone, fun hram hrd => (hvalue hram).trans (State.storeValueOf_of_ne hrd),
    fun hram hrd => (hvalue hram).trans (hrd ▸ s.storeValueOf_pc _)⟩

/-- Settles O29. -/
theorem byteStore : Obligations.ByteStore := by
  rintro k o c ix rn rd s u r hk hwf ⟨hc, hpc⟩ hok hr
  have hstore : singleEffect k (k.priv s) (k.indexing ix) rn rd (o.value s) s =
      transferStoreByte (k.priv s) (k.indexing ix) rn rd (o.value s) s := by
    rcases hk with rfl | rfl <;> rfl
  rw [exec_single k o hc hok, hstore]
  exact transferStoreByte_completes hpc (base_ne_of_baseOk (baseOk_of_singleOk hok)) hwf hr

end Sys2Proof.Machine
end

section
/-! PROOF. O31: the aborts of transfers and swaps (45_single_data_transfer.md R302, R303; 46_halfword_signed_transfer.md R329;
48_swap_swi_imb.md R371; 60_exceptions.md R435). First what the Data Abort of an access leaves; each form then owes that its
access is reached and is the one that aborts. -/

namespace Sys2Proof.Machine

/-! ### The Data Abort of an access -/

/-- The result is the Data Abort of an instruction in `s`, and memory is as before. -/
def Aborts (f : Option FaultStatus) (far : Word) (s : State) (x : Result) : Prop :=
  ∃ t, x = .next t ∧ AbortTaken f far s t ∧ MemKept s t

section
variable {s u : State} {f : Option FaultStatus} (far : Word)

/-- The fault status and address registers are all that recording a fault changes (10_state.md R66, R67). -/
theorem faultRecorded_eq (f : Option FaultStatus) (s : State) :
    faultRecorded f far s = s.withCp15 (faultRecorded f far s).cp15 := by
  cases f <;> rfl

theorem faultNoted_faultRecorded (h : u.cp15 = s.cp15) : FaultNoted f far s (faultRecorded f far u) := by
  cases f with
  | none => exact h
  | some x => simp [FaultNoted, faultRecorded, State.recordFault, h]

/-- A Data Abort, from a state that differs in the TLB and the draws only, is that of the instruction (60_exceptions.md R435,
R440). -/
theorem aborts_dataAbort (hl : SameButLookup s u) : Aborts f far s (dataAbort f far u) := by
  have hrec := faultRecorded_eq far f u
  refine ⟨_, dataAbort_eq f far u, ⟨?entered, faultNoted_faultRecorded far hl.cp15, ?outside, ?hazard⟩, ?mem⟩
  case entered =>
    rw [hl.pc]
    exact takeException_entered _ _ (by rw [hrec]; exact hl.regs) (by rw [hrec]; exact hl.cpsr) (by rw [hrec]; exact hl.spsr)
  case outside => rw [hrec]; exact ⟨hl.oldMaps, hl.plat, hl.env⟩
  case hazard => rw [hrec]; exact hl.bankHazard
  case mem => rw [hrec]; exact hl.memKept

/-- An access that aborts ends the instruction. -/
theorem aborts_run {α : Type} {x : Access α} {k : α → State → Result} (hl : SameButLookup s u) (hx : x = .abort f u) :
    Aborts f far s (x.run far k) := by
  rw [hx]
  exact aborts_dataAbort far hl

end

/-! ### Accesses that abort -/

section
variable {kind : AccessKind} {priv : Bool} {a : Word} {s u : State} {f : Option FaultStatus}

/-- What is to follow an access that aborts is not done. -/
theorem Access.bind_of_abort {α β : Type} {x : Access α} {k : α → State → Access β} (h : x = .abort f u) :
    x.bind k = .abort f u := by
  rw [h, Access.bind]

theorem loadWord_of_abort (h : reach kind priv 4 (wordAligned a) s = .abort f u) : loadWord kind priv a s = .abort f u :=
  Access.bind_of_abort h

theorem loadHalf_of_abort (h : reach .read priv 2 a s = .abort f u) : loadHalf priv a s = .abort f u :=
  Access.bind_of_abort h

theorem loadByte_of_abort (h : reach kind priv 1 a s = .abort f u) : loadByte kind priv a s = .abort f u :=
  Access.bind_of_abort h

theorem storeWord_of_abort (v : Word) (h : reach .write priv 4 (wordAligned a) s = .abort f u) :
    storeWord priv a v s = .abort f u := Access.bind_of_abort h

theorem storeHalf_of_abort (v : BitVec 16) (h : reach .write priv 2 a s = .abort f u) :
    storeHalf priv a v s = .abort f u := Access.bind_of_abort h

theorem storeByte_of_abort (v : Byte) (h : reach .write priv 1 a s = .abort f u) : storeByte priv a v s = .abort f u :=
  Access.bind_of_abort h

end

/-! ### Single and halfword transfers -/

/-- Where only an access without alignment checking may be misaligned, a checked one is not (20_memory.md R89). -/
theorem low_eq_zero_of_check {a : Word} {check : Bool} (h : a.extractLsb' 0 2 ≠ 0#2 → check = false) :
    check = true → a.extractLsb' 0 2 = 0#2 := fun hon => not_not.1 fun hne => by simp [h hne] at hon

section
variable {priv : Bool} {ix : Indexing} {rn rd : Reg} {offset a : Word} {s u : State} {f : Option FaultStatus}

theorem transferLoadWord_aborts (ha : a = transferAddr ix (s.readReg rn) offset)
    (hcheck : s.cp15.control.a = true → a.extractLsb' 0 2 = 0#2) (hpc : rd = 15#4 → a.extractLsb' 0 2 = 0#2)
    (h : reach .read priv 4 (wordAligned a) s = .abort f u) :
    Aborts f a s (transferLoadWord priv ix rn rd offset s) := by
  rw [transferLoadWord_of_checked ha hcheck hpc]
  exact aborts_run a (.of_reach_abort h) (loadWord_of_abort h)

theorem transferStoreWord_aborts (ha : a = transferAddr ix (s.readReg rn) offset)
    (hcheck : s.cp15.control.a = true → a.extractLsb' 0 2 = 0#2)
    (h : reach .write priv 4 (wordAligned a) s = .abort f u) :
    Aborts f a s (transferStoreWord priv ix rn rd offset s) := by
  rw [transferStoreWord_of_checked ha hcheck]
  exact aborts_run a (.of_reach_abort h) (storeWord_of_abort _ h)

theorem transferLoadByte_aborts (ha : a = transferAddr ix (s.readReg rn) offset) (h : reach .read priv 1 a s = .abort f u) :
    Aborts f a s (transferLoadByte priv ix rn rd offset s) := by
  subst ha
  exact aborts_run _ (.of_reach_abort h) (loadByte_of_abort h)

theorem transferStoreByte_aborts (ha : a = transferAddr ix (s.readReg rn) offset)
    (h : reach .write priv 1 a s = .abort f u) : Aborts f a s (transferStoreByte priv ix rn rd offset s) := by
  subst ha
  exact aborts_run _ (.of_reach_abort h) (storeByte_of_abort _ h)

theorem transferLoadHalf_aborts (widen : BitVec 16 → Word) (ha : a = transferAddr ix (s.readReg rn) offset)
    (heven : a.getLsbD 0 = false) (h : reach .read s.privileged 2 a s = .abort f u) :
    Aborts f a s (transferLoadHalf widen ix rn rd offset s) := by
  subst ha
  rw [transferLoadHalf, whenEven_of_even heven]
  exact aborts_run _ (.of_reach_abort h) (loadHalf_of_abort h)

theorem transferLoadSignedByte_aborts (ha : a = transferAddr ix (s.readReg rn) offset)
    (h : reach .read s.privileged 1 a s = .abort f u) : Aborts f a s (transferLoadSignedByte ix rn rd offset s) := by
  subst ha
  exact aborts_run _ (.of_reach_abort h) (loadByte_of_abort h)

theorem transferStoreHalf_aborts (ha : a = transferAddr ix (s.readReg rn) offset) (heven : a.getLsbD 0 = false)
    (h : reach .write s.privileged 2 a s = .abort f u) : Aborts f a s (transferStoreHalf ix rn rd offset s) := by
  subst ha
  rw [transferStoreHalf, whenEven_of_even heven]
  exact aborts_run _ (.of_reach_abort h) (storeHalf_of_abort _ h)

end

section
variable {c : Cond} {ix : Indexing} {rn rd : Reg} {a : Word} {s u : State} {f : Option FaultStatus}

/-- An aborted single transfer: a word access goes to the aligned address, after the checks of its own
(45_single_data_transfer.md R296, R302, R303). -/
theorem single_aborts {k : SingleKind} {o : SingleOffset} (hc : s.cpsr.flags.pass c = true)
    (ha : a = singleAddr k o ix rn s) (hok : singleOk k o ix rn rd = true)
    (hmis : k.byte = false → a.extractLsb' 0 2 ≠ 0#2 → s.cp15.control.a = false ∧ (k.load = true → rd ≠ 15#4))
    (h : reach (if k.load then .read else .write) (k.priv s) (if k.byte then 1 else 4) (if k.byte then a else wordAligned a)
      s = .abort f u) : Aborts f a s (exec (singleInstr k o c ix rn rd) s) := by
  have hcheck (hb : k.byte = false) : s.cp15.control.a = true → a.extractLsb' 0 2 = 0#2 :=
    low_eq_zero_of_check fun hne => (hmis hb hne).1
  have hpc (hb : k.byte = false) (hld : k.load = true) : rd = 15#4 → a.extractLsb' 0 2 = 0#2 := fun hrd =>
    not_not.1 fun hne => (hmis hb hne).2 hld hrd
  rw [exec_single k o hc hok]
  cases k with
  | ldr | ldrt => exact transferLoadWord_aborts ha (hcheck rfl) (hpc rfl rfl) h
  | str | strt => exact transferStoreWord_aborts ha (hcheck rfl) h
  | ldrb | ldrbt => exact transferLoadByte_aborts ha h
  | strb | strbt => exact transferStoreByte_aborts ha h

/-- An aborted halfword transfer (46_halfword_signed_transfer.md R329). -/
theorem half_aborts {k : HalfKind} {o : HalfOffset} (hc : s.cpsr.flags.pass c = true) (ha : a = halfAddr o ix rn s)
    (hok : halfOk o ix rn rd = true) (heven : k = .ldrsb ∨ a.getLsbD 0 = false)
    (h : reach (if k = .strh then .write else .read) s.privileged (if k = .ldrsb then 1 else 2) a s = .abort f u) :
    Aborts f a s (exec (halfInstr k o c ix rn rd) s) := by
  rw [exec_half k o hc hok]
  cases k with
  | strh => exact transferStoreHalf_aborts ha (heven.resolve_left nofun) h
  | ldrh | ldrsh => exact transferLoadHalf_aborts _ ha (heven.resolve_left nofun) h
  | ldrsb => exact transferLoadSignedByte_aborts ha h

end

/-! ### Swaps -/

section
variable {c : Cond} {rn rd rm : Reg} {s u : State} {f : Option FaultStatus}

/-- A word swap aborts with its read, or with its write after the read (48_swap_swi_imb.md R371). -/
theorem swapWord_aborts (hcheck : s.cp15.control.a = true → (s.readReg rn).extractLsb' 0 2 = 0#2)
    (h : reach .lockedRead s.privileged 4 (wordAligned (s.readReg rn)) s = .abort f u ∨
      ∃ r v, reach .lockedRead s.privileged 4 (wordAligned (s.readReg rn)) s = .ok r v ∧
        reach .write s.privileged 4 (wordAligned (s.readReg rn)) v = .abort f u) :
    Aborts f (s.readReg rn) s (swapWord rn rd rm s) := by
  simp only [swapWord, misalignedWord_and_eq_false hcheck, Bool.false_eq_true, if_false]
  rcases h with h | ⟨r, v, hr, hw⟩
  · exact aborts_run _ (.of_reach_abort h) (loadWord_of_abort h)
  · rw [Access.run_ok (loadWord_of_reach hr)]
    exact aborts_run _ ((SameButLookup.of_reach_ok hr).trans (.of_reach_abort hw)) (storeWord_of_abort _ hw)

/-- So does a byte swap (48_swap_swi_imb.md R371). -/
theorem swapByte_aborts
    (h : reach .lockedRead s.privileged 1 (s.readReg rn) s = .abort f u ∨
      ∃ r v, reach .lockedRead s.privileged 1 (s.readReg rn) s = .ok r v ∧
        reach .write s.privileged 1 (s.readReg rn) v = .abort f u) :
    Aborts f (s.readReg rn) s (swapByte rn rd rm s) := by
  rw [swapByte]
  rcases h with h | ⟨r, v, hr, hw⟩
  · exact aborts_run _ (.of_reach_abort h) (loadByte_of_abort h)
  · rw [Access.run_ok (loadByte_of_reach hr)]
    exact aborts_run _ ((SameButLookup.of_reach_ok hr).trans (.of_reach_abort hw)) (storeByte_of_abort _ hw)

theorem exec_swp (hc : s.cpsr.flags.pass c = true) (hok : swapOk rn rd rm = true) :
    exec (.swp c rn rd rm) s = swapWord rn rd rm s := (whenPassed_of_pass hc).trans (allowing_of_ok hok)

theorem exec_swpb (hc : s.cpsr.flags.pass c = true) (hok : swapOk rn rd rm = true) :
    exec (.swpb c rn rd rm) s = swapByte rn rd rm s := (whenPassed_of_pass hc).trans (allowing_of_ok hok)

end

/-- Settles O31. -/
theorem transferAborts : Obligations.TransferAborts := by
  intro c rn rd s u f hc
  refine ⟨?single, ?half, ?swap⟩
  case single =>
    rintro k o ix i a rfl ha hok hmis h
    exact single_aborts hc ha hok hmis h
  case half =>
    rintro k o ix i a rfl ha hok heven h
    exact half_aborts hc ha hok heven h
  case swap =>
    rintro rm a hok rfl
    rw [exec_swp hc hok, exec_swpb hc hok]
    exact ⟨fun hmis => swapWord_aborts (low_eq_zero_of_check hmis), swapByte_aborts⟩

end Sys2Proof.Machine
end

section
/-! PROOF. O33, O34: the halfword and signed transfers that complete (46_halfword_signed_transfer.md R322, R325 to R328;
20_memory.md R91, R114). -/

namespace Sys2Proof.Machine

/-! ### Loads -/

/-- A halfword transfer that writes back does not load or store its base (46_halfword_signed_transfer.md R323 b). -/
theorem baseOk_of_halfOk {o : HalfOffset} {ix : Indexing} {rn rd : Reg} (h : halfOk o ix rn rd = true) :
    baseOk ix rn rd = true := by
  cases o with
  | imm off =>
    simp only [halfOk, halfImmOk, Bool.and_eq_true] at h
    exact h.1.2
  | reg rm =>
    simp only [halfOk, halfRegOk, halfImmOk, Bool.and_eq_true] at h
    exact h.1.1.2

section
variable {ix : Indexing} {rn rd : Reg} {offset a : Word} {s u : State} {r : Reached}

theorem transferLoadHalf_completes (widen : BitVec 16 → Word) (hpc : s.pc ≠ 0xFFFFFFFC#32) (hok : baseOk ix rn rd = true)
    (hrd : rd ≠ 15#4) (ha : a = transferAddr ix (s.readReg rn) offset) (heven : a.getLsbD 0 = false)
    (hr : reach .read s.privileged 2 a s = .ok r u) :
    ∃ t, transferLoadHalf widen ix rn rd offset s = .next t ∧
      LoadDone ix rn rd (offsetAddr ix (s.readReg rn) offset)
        (widen (s.mem.readHalf (halfCell s.cp15.control.b r.pa))) s t := by
  subst ha
  have hl := SameButLookup.of_reach_ok hr
  rw [transferLoadHalf, whenEven_of_even heven, Access.run_ok (loadHalf_of_reach hr), hl.mem, hl.cp15]
  exact load_completes _ _ hl hpc hok hrd

theorem transferLoadSignedByte_completes (hpc : s.pc ≠ 0xFFFFFFFC#32) (hok : baseOk ix rn rd = true) (hrd : rd ≠ 15#4)
    (ha : a = transferAddr ix (s.readReg rn) offset) (hr : reach .read s.privileged 1 a s = .ok r u) :
    ∃ t, transferLoadSignedByte ix rn rd offset s = .next t ∧
      LoadDone ix rn rd (offsetAddr ix (s.readReg rn) offset)
        ((s.mem.read (byteCell s.cp15.control.b r.pa)).signExtend 32) s t := by
  subst ha
  have hl := SameButLookup.of_reach_ok hr
  rw [transferLoadSignedByte, Access.run_ok (loadByte_of_reach hr), hl.mem, hl.cp15]
  exact load_completes _ _ hl hpc hok hrd

end

/-- Settles O33: a zero extension keeps the unsigned value, a sign extension the signed one. -/
theorem halfwordLoad : Obligations.HalfwordLoad := by
  rintro o c ix rn rd s u r ⟨hc, hpc⟩ hok a ha
  have hbase := baseOk_of_halfOk hok
  obtain ⟨-, hrd⟩ := halfOk_ne hok
  refine ⟨fun heven hr => ?half, fun hr => ?byte⟩
  case half =>
    rintro v rfl
    have hload (widen : BitVec 16 → Word) := transferLoadHalf_completes widen hpc hbase hrd ha heven hr
    rw [exec_half .ldrh o hc hok, exec_half .ldrsh o hc hok, BitVec.ofNat_toNat]
    exact ⟨hload (BitVec.setWidth 32), hload (BitVec.signExtend 32)⟩
  case byte =>
    rw [exec_half .ldrsb o hc hok]
    exact transferLoadSignedByte_completes hpc hbase hrd ha hr

/-! ### Stores -/

/-- A half-word write changes the two cells of its half-word only (20_memory.md R91). -/
theorem Memory.read_writeHalf_outside (m : Memory) (lo : Nat) (v : BitVec 16) {a : Nat} (h : ¬ inCells lo 2 a) :
    (m.writeHalf lo v).read a = m.read a :=
  Memory.read_writeHalf_of_ne m v (by rw [inCells] at h; omega)

/-- The half-word that an access of an even address reaches ends in the address space (20_memory.md R87). -/
theorem halfCell_lt_of_reach {kind : AccessKind} {priv : Bool} {n : Nat} {a : Word} {s u : State} {r : Reached} (b : Bool)
    (heven : a.getLsbD 0 = false) (h : reach kind priv n a s = .ok r u) : halfCell b r.pa + 1 < 2 ^ 32 := by
  have hbit : r.pa.getLsbD 0 = a.getLsbD 0 := by simpa using congrArg (fun y => y.getLsbD 0) (reach_low h)
  exact halfCell_lt b (hbit.trans heven)

theorem transferStoreHalf_completes {ix : Indexing} {rn rd : Reg} {offset a : Word} {s u : State} {r : Reached}
    (hpc : s.pc ≠ 0xFFFFFFFC#32) (hrn : writesBack ix = true → rn ≠ 15#4) (hwf : s.mem.wf = true)
    (ha : a = transferAddr ix (s.readReg rn) offset) (heven : a.getLsbD 0 = false)
    (hr : reach .write s.privileged 2 a s = .ok r u) :
    ∃ t, transferStoreHalf ix rn rd offset s = .next t ∧
      StoreDone ix rn (offsetAddr ix (s.readReg rn) offset) (halfCell s.cp15.control.b r.pa) 2 u r s t ∧
      (r.rom = false →
        t.mem.readHalf (halfCell s.cp15.control.b r.pa) = (s.readReg rd).extractLsb' 0 16) := by
  subst ha
  have hl := SameButLookup.of_reach_ok hr
  rw [transferStoreHalf, whenEven_of_even heven, Access.run_ok (storeHalf_of_reach _ hr), hl.mem, hl.cp15]
  obtain ⟨t, ht, hdone, hmem⟩ := store_completes (offsetAddr ix (s.readReg rn) offset) hl hpc hrn
    fun _ => s.mem.read_writeHalf_outside (halfCell s.cp15.control.b r.pa) ((s.readReg rd).extractLsb' 0 16)
  exact ⟨t, ht, hdone, fun hram => by
    rw [hmem hram, Memory.readHalf_writeHalf _ _ _ hwf (halfCell_lt_of_reach _ heven hr)]⟩

/-- Settles O34. -/
theorem halfwordStore : Obligations.HalfwordStore := by
  rintro o c ix rn rd s u r hwf ⟨hc, hpc⟩ hok a ha heven hr
  rw [exec_half .strh o hc hok]
  exact transferStoreHalf_completes hpc (halfOk_ne hok).1 hwf ha heven hr

end Sys2Proof.Machine
end

section
/-! PROOF. O32: misaligned accesses (20_memory.md R89, R105, R106; 46_halfword_signed_transfer.md R323;
47_block_data_transfer.md R341). Each form is shown to be the one alignment abort, of which the rest is said once. -/

namespace Sys2Proof.Machine

/-! ### The alignment abort -/

/-- The result is the Data Abort of an alignment fault at `far` in `s`; memory and the TLB are as before (20_memory.md R106). -/
def AlignmentFaults (far : Word) (s : State) (x : Result) : Prop :=
  ∃ t f, x = .next t ∧ AbortTaken (some f) far s t ∧ t.tlb = s.tlb ∧
    f.status.extractLsb' 2 2 = 0#2 ∧ f.status.getLsbD 0 = true ∧ MemKept s t

/-- An alignment fault's status is 0b00x1, whatever its open bit (20_memory.md R106). -/
theorem alignmentStatus_bits (s : State) :
    (alignmentStatus s).status.extractLsb' 2 2 = 0#2 ∧ (alignmentStatus s).status.getLsbD 0 = true := by
  have hopen (b : BitVec 1) : (0b00#2 ++ b ++ 1#1).extractLsb' 2 2 = 0#2 ∧ (0b00#2 ++ b ++ 1#1).getLsbD 0 = true := by
    revert b; decide
  exact hopen _

theorem alignmentFaults_alignmentAbort (far : Word) (s : State) : AlignmentFaults far s (alignmentAbort far s) := by
  obtain ⟨t, ht, habort, hmem⟩ := aborts_dataAbort (f := some (alignmentStatus s)) far (SameButLookup.drawn s)
  obtain ⟨hhigh, hlow⟩ := alignmentStatus_bits s
  have htlb : t.tlb = s.tlb := by rw [alignmentAbort_next ht]; rfl
  exact ⟨t, _, ht, habort, htlb, hhigh, hlow, hmem⟩

/-! ### Where it is taken -/

/-- With alignment checking on a word access to a misaligned address is not made (20_memory.md R89). -/
theorem misalignedWord_and_eq_true {a : Word} {check : Bool} (hcheck : check = true) (h : a.extractLsb' 0 2 ≠ 0#2) :
    (misalignedWord a && check) = true := by
  simp [misalignedWord, hcheck, h]

/-- The single word transfers (45_single_data_transfer.md R296, R298). -/
theorem exec_single_misaligned {k : SingleKind} {o : SingleOffset} {c : Cond} {ix : Indexing} {rn rd : Reg} {s : State}
    {a : Word} (hc : s.cpsr.flags.pass c = true) (hcheck : s.cp15.control.a = true) (hbyte : k.byte = false)
    (hok : singleOk k o ix rn rd = true) (ha : a = singleAddr k o ix rn s) (hmis : a.extractLsb' 0 2 ≠ 0#2) :
    exec (singleInstr k o c ix rn rd) s = alignmentAbort a s := by
  subst ha
  rw [exec_single k o hc hok]
  have htaken := misalignedWord_and_eq_true hcheck hmis
  cases k with
  | ldr | ldrt | str | strt => exact if_pos htaken
  | ldrb | ldrbt | strb | strbt => cases hbyte

/-- A half-word transfer to an odd address is never made: it is the alignment abort, or refused
(46_halfword_signed_transfer.md R323 e; log 26). -/
theorem exec_half_odd {k : HalfKind} {o : HalfOffset} {c : Cond} {ix : Indexing} {rn rd : Reg} {s : State} {a : Word}
    (hc : s.cpsr.flags.pass c = true) (hk : k ≠ .ldrsb) (hok : halfOk o ix rn rd = true) (ha : a = halfAddr o ix rn s)
    (hodd : a.getLsbD 0 = true) :
    exec (halfInstr k o c ix rn rd) s =
      if s.cp15.control.a then alignmentAbort a s else .refused .misalignedHalfword := by
  subst ha
  rw [exec_half k o hc hok]
  cases k with
  | strh | ldrh | ldrsh => exact if_pos hodd
  | ldrsb => exact absurd rfl hk

/-- The word swap (48_swap_swi_imb.md R371). -/
theorem exec_swp_misaligned {c : Cond} {rn rd rm : Reg} {s : State} (hc : s.cpsr.flags.pass c = true)
    (hcheck : s.cp15.control.a = true) (hok : swapOk rn rd rm = true) (hmis : (s.readReg rn).extractLsb' 0 2 ≠ 0#2) :
    exec (.swp c rn rd rm) s = alignmentAbort (s.readReg rn) s :=
  (exec_swp hc hok).trans (if_pos (misalignedWord_and_eq_true hcheck hmis))

theorem whenBaseAligned_of_misaligned {base start : Word} {s : State} {k : Result} (loadsPc : Bool)
    (hcheck : s.cp15.control.a = true) (hmis : base.extractLsb' 0 2 ≠ 0#2) :
    whenBaseAligned loadsPc base start s k = alignmentAbort start s := by
  simp [whenBaseAligned, misalignedWord, hmis, hcheck]

/-- The block transfers, with the address of their first word (47_block_data_transfer.md R341; log 39). -/
theorem exec_block_misaligned {c : Cond} {bm : BlockMode} {rn : Reg} {list : BitVec 16} {s : State}
    (hc : s.cpsr.flags.pass c = true) (hcheck : s.cp15.control.a = true) (hmode : blockModeOk bm s.cpsr.mode = true)
    (hfits : blockFits (blockStart bm (s.readReg rn) list) list = true) (hmis : (s.readReg rn).extractLsb' 0 2 ≠ 0#2) :
    (loadBlockOk bm rn list = true →
        exec (.ldm c bm rn list) s = alignmentAbort (blockStart bm (s.readReg rn) list) s) ∧
      (storeBlockOk bm rn list = true →
        exec (.stm c bm rn list) s = alignmentAbort (blockStart bm (s.readReg rn) list) s) :=
  ⟨fun hok => (whenPassed_of_pass hc).trans ((allowing_of_ok hok).trans ((allowing_of_ok hmode).trans
      ((allowing_of_ok hfits).trans (whenBaseAligned_of_misaligned _ hcheck hmis)))),
    fun hok => (whenPassed_of_pass hc).trans ((allowing_of_ok hok).trans ((allowing_of_ok hmode).trans
      ((allowing_of_ok hfits).trans (whenBaseAligned_of_misaligned _ hcheck hmis))))⟩

/-- Settles O32. -/
theorem misalignedAccesses : Obligations.MisalignedAccesses := by
  refine ⟨?checked, ?unchecked⟩
  case checked =>
    intro c rn rd rm s i far hc hcheck hform
    have habort : exec i s = alignmentAbort far s := by
      rcases hform with ⟨k, o, ix, rfl, hbyte, hok, ha, hmis⟩ | ⟨k, o, ix, rfl, hk, hok, ha, hodd⟩ |
        ⟨rfl, hok, rfl, hmis⟩ | ⟨bm, list, hi, hmode, rfl, hfits, hmis⟩
      · exact exec_single_misaligned hc hcheck hbyte hok ha hmis
      · rw [exec_half_odd hc hk hok ha hodd, if_pos hcheck]
      · exact exec_swp_misaligned hc hcheck hok hmis
      · obtain ⟨hldm, hstm⟩ := exec_block_misaligned hc hcheck hmode hfits hmis
        rcases hi with ⟨rfl, hok⟩ | ⟨rfl, hok⟩
        · exact hldm hok
        · exact hstm hok
    rw [habort]
    exact alignmentFaults_alignmentAbort far s
  case unchecked =>
    intro k o c ix rn rd s hk hc hok hoff hodd
    rw [exec_half_odd hc hk hok rfl hodd, hoff]
    rfl

end Sys2Proof.Machine
end

section
/-! PROOF. What LDM and STM share: the operands that are accepted, the base that is accepted, and the addresses of the words
(47_block_data_transfer.md R341, R342; 20_memory.md R87). -/

namespace Sys2Proof.Machine

/-! ### Operands that are accepted -/

section
variable {bm : BlockMode} {rn : Reg} {list : BitVec 16}

theorem rn_ne_of_loadBlockOk (h : loadBlockOk bm rn list = true) : rn ≠ 15#4 := by
  rintro rfl
  simp [(loadBlockOk_eq_false_iff bm _ list).2 (.inr (.inl rfl))] at h

theorem rn_ne_of_storeBlockOk (h : storeBlockOk bm rn list = true) : rn ≠ 15#4 := by
  rintro rfl
  simp [storeBlockOk_eq_false (bm := bm) (rn := 15#4) (list := list) (.inr (.inl rfl))] at h

/-- An LDM that writes its base back does not load it, and with S it loads R15 (47_block_data_transfer.md R342 c, f). -/
theorem writeback_of_loadBlockOk (h : loadBlockOk bm rn list = true) (hw : bm.w = true) :
    inList list rn = false ∧ (bm.s = true → inList list 15#4 = true) := by
  constructor
  · by_contra hin
    simp [(loadBlockOk_eq_false_iff bm rn list).2 (.inr (.inr (.inl ⟨hw, by simpa using hin⟩)))] at h
  · intro hs
    by_contra hpc
    simp [(loadBlockOk_eq_false_iff bm rn list).2 (.inr (.inr (.inr ⟨hs, hw, by simpa using hpc⟩)))] at h

end

/-! ### What comes before the transfers -/

/-- A misaligned base does not stop a transfer that neither is checked nor loads R15 (47_block_data_transfer.md R341). -/
theorem whenBaseAligned_of_accepted {base start : Word} {s : State} {k : Result} {loadsPc : Bool}
    (h : s.cp15.control.a = true ∨ loadsPc = true → base.extractLsb' 0 2 = 0#2) :
    whenBaseAligned loadsPc base start s k = k := by
  by_cases hbase : base.extractLsb' 0 2 = 0#2
  · simp [whenBaseAligned, misalignedWord, hbase]
  · obtain ⟨hcheck, hpc⟩ := not_or.1 (mt h hbase)
    simp [whenBaseAligned, hcheck, hpc]

section
variable {c : Cond} {bm : BlockMode} {rn : Reg} {list : BitVec 16} {s : State}

/-- An LDM whose operands, mode and addresses are accepted (47_block_data_transfer.md R342). -/
theorem exec_ldm (hc : s.cpsr.flags.pass c = true) (hok : loadBlockOk bm rn list = true)
    (hmode : blockModeOk bm s.cpsr.mode = true) (hfits : blockFits (blockStart bm (s.readReg rn) list) list = true) :
    exec (.ldm c bm rn list) s = whenBaseAligned (inList list 15#4) (s.readReg rn) (blockStart bm (s.readReg rn) list) s
      (loadBlock bm rn list s) :=
  (whenPassed_of_pass hc).trans ((allowing_of_ok hok).trans ((allowing_of_ok hmode).trans (allowing_of_ok hfits)))

/-- The same of an STM. -/
theorem exec_stm (hc : s.cpsr.flags.pass c = true) (hok : storeBlockOk bm rn list = true)
    (hmode : blockModeOk bm s.cpsr.mode = true) (hfits : blockFits (blockStart bm (s.readReg rn) list) list = true) :
    exec (.stm c bm rn list) s = whenBaseAligned false (s.readReg rn) (blockStart bm (s.readReg rn) list) s
      (storeBlock bm rn list s) :=
  (whenPassed_of_pass hc).trans ((allowing_of_ok hok).trans ((allowing_of_ok hmode).trans (allowing_of_ok hfits)))

end

/-! ### The addresses of the words -/

theorem toNat_add_ofNat_word (a : Word) (n : Nat) : (a + BitVec.ofNat 32 n).toNat = (a.toNat + n) % 2 ^ 32 := by
  simp

/-- Bits 1:0 are cleared before or after a number of words is added (10_state.md R30). -/
theorem wordAligned_add_words (a : Word) (k : Nat) :
    wordAligned (a + BitVec.ofNat 32 (4 * k)) = wordAligned a + BitVec.ofNat 32 (4 * k) := by
  apply BitVec.eq_of_toNat_eq
  rw [wordAligned_toNat, toNat_add_ofNat_word, toNat_add_ofNat_word, wordAligned_toNat]
  omega

theorem wordAligned_add_four (a : Word) : wordAligned (a + 4#32) = wordAligned a + 4#32 := wordAligned_add_words a 1

/-- The words after the first one of a block are those of the block that begins 4 above. -/
theorem add_four_add_words (a : Word) (k : Nat) :
    a + 4#32 + BitVec.ofNat 32 (4 * k) = a + BitVec.ofNat 32 (4 * (k + 1)) := by
  rw [BitVec.add_assoc, Nat.mul_succ, Nat.add_comm (4 * k), BitVec.ofNat_add]

end Sys2Proof.Machine
end

section
/-! PROOF. O38: the words an LDM reads with the MMU off (47_block_data_transfer.md R341; 20_memory.md R90). -/

namespace Sys2Proof.Machine

/-- With the MMU off an access that is not aborted reaches the address itself, where memory stands (20_memory.md R90,
R105). -/
theorem reach_mmu_off {kind : AccessKind} {n : Nat} {a : Word} {s : State} (priv : Bool) (hm : s.cp15.control.m = false)
    (ha : s.aborted a n kind = false) (hk : s.kindAt a n = some .ram ∨ s.kindAt a n = some .rom) :
    ∃ rom, reach kind priv n a s = .ok { pa := a, rom := rom } s := by
  obtain ⟨hram, hrom, -, -⟩ := reach_of_translate_ok (priv := priv) (translate_mmu_off hm) ha
  exact hk.elim (fun hk => ⟨_, hram hk⟩) fun hk => ⟨_, hrom hk⟩

theorem loadWord_mmu_off {kind : AccessKind} {a : Word} {s : State} (priv : Bool) (hm : s.cp15.control.m = false)
    (ha : s.aborted (wordAligned a) 4 kind = false)
    (hk : s.kindAt (wordAligned a) 4 = some .ram ∨ s.kindAt (wordAligned a) 4 = some .rom) :
    loadWord kind priv a s = .ok (s.mem.readWord (wordCell (wordAligned a))) s := by
  obtain ⟨rom, hr⟩ := reach_mmu_off priv hm ha hk
  rw [loadWord_of_reach hr]

/-- A read that is done, and the reads after it. -/
theorem readBlock_cons {r : Reg} {rs : List Reg} {a v : Word} {s t u : State} {vs : List Loaded}
    (h : loadWord .read s.privileged a s = .ok v t) (hrs : readBlock rs (a + 4#32) t = .done vs u) :
    readBlock (r :: rs) a s = .done ({ reg := r, value := v } :: vs) u := by
  simp only [readBlock, h, hrs, BlockEnd.cons]

/-- The reads of any registers, one word after the other. -/
theorem readBlock_mmu_off {s : State} (hm : s.cp15.control.m = false) (rs : List Reg) (start : Word)
    (h : ∀ k, k < rs.length → ∀ a, a = wordAligned start + BitVec.ofNat 32 (4 * k) →
      s.aborted a 4 .read = false ∧ (s.kindAt a 4 = some .ram ∨ s.kindAt a 4 = some .rom)) :
    ∃ vs, readBlock rs start s = .done vs s ∧ vs.map (·.reg) = rs ∧ ∀ (k : Nat) (x : Loaded), vs[k]? = some x →
      x.value = s.mem.readWord (wordCell (wordAligned start + BitVec.ofNat 32 (4 * k))) := by
  induction rs generalizing start with
  | nil => exact ⟨[], rfl, rfl, nofun⟩
  | cons r rs ih =>
    obtain ⟨hab, hkind⟩ := h 0 (by simp) (wordAligned start) (by simp)
    obtain ⟨vs, hvs, hregs, hvalues⟩ := ih (start + 4#32) fun k hk a ha =>
      h (k + 1) (by simpa using hk) a (by rw [ha, wordAligned_add_four, add_four_add_words])
    refine ⟨_, readBlock_cons (loadWord_mmu_off _ hm hab hkind) hvs, by rw [List.map_cons, hregs], fun k x hx => ?_⟩
    cases k with
    | zero =>
      obtain rfl : _ = x := by simpa using hx
      simp
    | succ k => rw [hvalues k x (by simpa using hx), wordAligned_add_four, add_four_add_words]

/-- Settles O38. -/
theorem loadMultipleAddresses : Obligations.LoadMultipleAddresses := fun list start _ hm =>
  readBlock_mmu_off hm (regsOf list) start

end Sys2Proof.Machine
end

section
/-! PROOF. O36, O37: the LDM that completes (47_block_data_transfer.md R344, R348 to R350). First the state with the base and
the registers written, from which an LDM goes on, branches or returns. -/

namespace Sys2Proof.Machine

/-! ### The registers written -/

theorem SameButRegs.allKept {s t : State} (h : SameButRegs s t) : AllKept s t := by
  rw [h]
  apply AllKept.of_eq <;> rfl

theorem SameButRegs.cpsr {s t : State} (h : SameButRegs s t) : t.cpsr = s.cpsr := by rw [h]; rfl

/-- The state of an LDM when its base, then its registers are written (47_block_data_transfer.md R344). -/
def State.blockLoaded (bm : BlockMode) (rn : Reg) (list : BitVec 16) (base : Word) (vs : List Loaded) (s : State) : State :=
  writeLoaded (blockBank true bm list s.cpsr.mode) vs (blockWriteBack bm rn list base s)

/-- From `s` to `t` the loaded registers but R15 and, with W, the base are written, each in the bank it belongs to; beside
them the TLB and the draws may change (47_block_data_transfer.md R344, R349, R350). -/
structure BlockLoaded (bm : BlockMode) (rn : Reg) (list : BitVec 16) (base : Word) (vs : List Loaded) (s t : State) :
    Prop where
  values : ∀ x ∈ vs, x.reg ≠ 15#4 → ∀ p, (blockBank true bm list s.cpsr.mode).bank x.reg = some p →
    t.regs.get p = x.value
  base   : bm.w = true → ∀ p, s.cpsr.mode.bank rn = some p → t.regs.get p = blockWritten bm base list
  others : ∀ p, (∀ r ∈ regsOf list, (blockBank true bm list s.cpsr.mode).bank r ≠ some p) →
    (bm.w = true → s.cpsr.mode.bank rn ≠ some p) → t.regs.get p = s.regs.get p
  pc     : t.pc = s.pc
  cpsr   : t.cpsr = s.cpsr
  rest   : RestKept s t
  mem    : MemKept s t

/-- With S and R15 in the list, or without S, the registers are the current mode's (47_block_data_transfer.md R349). -/
theorem blockBank_of_current {bm : BlockMode} {list : BitVec 16} (m : Mode)
    (h : bm.s = true → inList list 15#4 = true) : blockBank true bm list m = m := by
  cases hs : bm.s
  · simp [blockBank, hs]
  · simp [blockBank, h hs]

/-- Without R15 in the list S selects the User bank (47_block_data_transfer.md R350). -/
theorem blockBank_of_no_pc {bm : BlockMode} {list : BitVec 16} (m : Mode) (h : inList list 15#4 = false) :
    blockBank true bm list m = if bm.s then .usr else m := by
  simp [blockBank, h]

section
variable {bm : BlockMode} {rn : Reg} {list : BitVec 16} {s u : State} {vs : List Loaded}

/-- The registers that were read are those of the list, R15 among them only where the list names it. -/
theorem inList_of_loaded {x : Loaded} (hregs : vs.map (·.reg) = regsOf list) (hx : x ∈ vs) : inList list x.reg = true :=
  (mem_regsOf list x.reg).1 (hregs ▸ List.mem_map_of_mem hx)

/-- The base is not among the registers loaded, so that the order of the writes does not show. -/
theorem blockLoaded_of_reads (base : Word) (hok : loadBlockOk bm rn list = true) (hl : SameButLookup s u)
    (hregs : vs.map (·.reg) = regsOf list) : BlockLoaded bm rn list base vs s (u.blockLoaded bm rn list base vs) := by
  obtain ⟨p, hp⟩ := Mode.bank_some u.cpsr.mode rn (rn_ne_of_loadBlockOk hok)
  obtain ⟨hback, hbase, hothers⟩ := blockWriteBack_all bm list base u hp
  obtain ⟨hwrite, hkeep, hvalue⟩ :=
    writeLoaded_all (blockBank true bm list u.cpsr.mode) vs (blockWriteBack bm rn list base u)
  have hall : AllKept u (u.blockLoaded bm rn list base vs) := (hback.trans hwrite).allKept
  refine ⟨?values, ?base, ?others, ((hback.trans hwrite).pc).trans hl.pc, ((hback.trans hwrite).cpsr).trans hl.cpsr,
    hl.restKept.trans hall.rest, hl.memKept.trans hall.mem⟩
  case values =>
    intro x hx hpc q hq
    exact hvalue (hregs ▸ regsOf_nodup list) x hx (by simpa [isPc] using hpc) q (by rw [hl.cpsr]; exact hq)
  case base =>
    intro hw q hq
    obtain ⟨hnot, hs⟩ := writeback_of_loadBlockOk hok hw
    obtain rfl : p = q := Option.some.inj (by rw [← hp, ← hq, hl.cpsr])
    rw [← hbase hw]
    refine hkeep p fun x hx => .inr fun hbank => ?_
    rw [blockBank_of_current _ hs, ← hp] at hbank
    have hin := inList_of_loaded hregs hx
    rw [Mode.bank_injective _ _ _ hbank, hnot] at hin
    cases hin
  case others =>
    intro q hq hqbase
    rw [← hl.regs, ← hothers q fun hw hqp => hqbase hw (by rw [← hl.cpsr, hp, hqp])]
    refine hkeep q fun x hx => .inr ?_
    rw [hl.cpsr]
    exact hq x.reg (hregs ▸ List.mem_map_of_mem hx)

/-! ### An LDM without R15 -/

theorem finishLoad_of_no_pc (base : Word) (h : ∀ x ∈ vs, x.reg ≠ 15#4) :
    finishLoad bm rn list base vs u = advance ((u.blockLoaded bm rn list base vs).withBankHazard bm.s) := by
  have hnone : (vs.find? fun x => isPc x.reg) = none :=
    List.find?_eq_none.2 fun x hx => mt (isPc_iff x.reg).1 (h x hx)
  simp only [finishLoad, hnone, State.blockLoaded]

/-- The reads of an LDM are done, and it ends (47_block_data_transfer.md R344). -/
theorem loadBlock_of_done (h : readBlock (regsOf list) (blockStart bm (s.readReg rn) list) s = .done vs u) :
    loadBlock bm rn list s = finishLoad bm rn list (s.readReg rn) vs u := by
  simp only [loadBlock, h]

end

/-- Settles O36. -/
theorem loadMultiple : Obligations.LoadMultiple := by
  rintro c bm rn list s u vs start ⟨hc, hpc⟩ hok hmode hlist rfl hfits hcheck hread
  obtain ⟨hl, hregs⟩ := readBlock_done hread
  have hne : ∀ x ∈ vs, x.reg ≠ 15#4 := fun x hx h => by
    have hin := inList_of_loaded hregs hx
    rw [h, hlist] at hin
    cases hin
  have hdone := blockLoaded_of_reads (s.readReg rn) hok hl hregs
  have hexec : exec (.ldm c bm rn list) s =
      advance ((u.blockLoaded bm rn list (s.readReg rn) vs).withBankHazard bm.s) := by
    rw [exec_ldm hc hok hmode hfits, whenBaseAligned_of_word _ hcheck hlist, loadBlock_of_done hread,
      finishLoad_of_no_pc _ hne]
  obtain ⟨hvalues, hbase, hothers, hpc', hcpsr, hrest, hmem⟩ := hdone
  rw [blockBank_of_no_pc _ hlist] at hvalues hothers
  refine ⟨_, hexec.trans (advance_of_ne (hpc'.trans_ne hpc)), hregs, fun x hx => ?value, fun hw => ?base, hothers, rfl,
    congrArg (· + 4#32) hpc', congrArg Cpsr.flags hcpsr, ?control, ?outside, hmem⟩
  case value =>
    obtain ⟨p, hp⟩ := Mode.bank_some (if bm.s then .usr else s.cpsr.mode) x.reg (hne x hx)
    rw [State.readRegOf_eq _ _ hp]
    exact hvalues x hx (hne x hx) p hp
  case base =>
    obtain ⟨p, hp⟩ := Mode.bank_some s.cpsr.mode rn (rn_ne_of_loadBlockOk hok)
    rw [State.readReg, State.readRegOf_eq (p := p) _ _ (by rw [← hp, ← hcpsr]; rfl)]
    exact hbase hw p hp
  case control => exact ⟨hrest.control.i, hrest.control.f, hrest.control.mode, hrest.control.spsr, hrest.control.cp15⟩
  case outside => exact ⟨hrest.outside.oldMaps, hrest.outside.plat, hrest.outside.env⟩

/-! ### An LDM with R15 -/

section
variable {bm : BlockMode} {rn : Reg} {list : BitVec 16} {s u : State} {vs : List Loaded}

/-- The word of R15 is handed to the branch (47_block_data_transfer.md R348). -/
theorem finishLoad_of_pc (base : Word) {x : Loaded} (hvs : ∀ y ∈ vs, y.reg ≠ 15#4) (hx : x.reg = 15#4) :
    finishLoad bm rn list base (vs ++ [x]) u = loadBlockPc bm.s x.value (u.blockLoaded bm rn list base (vs ++ [x])) := by
  have hfind : ((vs ++ [x]).find? fun y => isPc y.reg) = some x := by
    rw [List.find?_append, List.find?_eq_none.2 fun y hy => mt (isPc_iff y.reg).1 (hvs y hy)]
    simp [isPc, hx]
  simp only [finishLoad, hfind, State.blockLoaded]

/-- A loaded word that is no word address is refused (47_block_data_transfer.md R348; D25, log 27). -/
theorem loadBlockPc_of_low_bits {sBit : Bool} {v : Word} (h : v.extractLsb' 0 2 ≠ 0#2) :
    loadBlockPc sBit v s = .refused .pcLowBits := by
  simp [loadBlockPc, misalignedWord, h]

theorem loadBlockPc_of_word {sBit : Bool} {v : Word} (h : v.extractLsb' 0 2 = 0#2) :
    loadBlockPc sBit v s = if sBit then returnTo v s else jump v s := by
  simp [loadBlockPc, misalignedWord, h]

/-- A word address is branched to; with S the SPSR becomes the CPSR in the same step (47_block_data_transfer.md R348,
R349). -/
theorem loadBlockPc_completes {sBit : Bool} {v : Word} {cpsr : Cpsr} (h : v.extractLsb' 0 2 = 0#2)
    (hcpsr : sBit = false ∧ cpsr = s.cpsr ∨ sBit = true ∧ ∃ p, s.spsrNow = some p ∧ p.restored = some cpsr) :
    loadBlockPc sBit v s = .next ((s.withCpsr cpsr).withPc v) := by
  have hv := (wordAligned_eq_self_iff v).2 h
  rw [loadBlockPc_of_word h]
  rcases hcpsr with ⟨rfl, rfl⟩ | ⟨rfl, p, hp, hc⟩
  · rw [if_neg Bool.false_ne_true, jump, hv]
    rfl
  · rw [if_pos rfl, returnTo_of_some hp hc, hv]

/-- R15 is the last register of a list, and none before it is R15. -/
theorem ne_pc_of_append {x : Loaded} (hregs : (vs ++ [x]).map (·.reg) = regsOf list) (hx : x.reg = 15#4) :
    ∀ y ∈ vs, y.reg ≠ 15#4 := by
  have hnodup := regsOf_nodup list
  rw [← hregs, List.map_append, List.nodup_append] at hnodup
  obtain ⟨-, -, hdisjoint⟩ := hnodup
  exact fun y hy hpc => hdisjoint _ (List.mem_map_of_mem hy) _ (List.mem_singleton.2 rfl) (hpc.trans hx.symm)

end

/-- Settles O37: the reads end, and the word of R15 is branched to, returned to or refused. -/
theorem loadMultiplePc : Obligations.LoadMultiplePc := by
  rintro c bm rn list s u vs v start hc hok hmode hlist rfl hfits
  have hexec := exec_ldm hc hok hmode hfits
  rw [hlist] at hexec
  refine ⟨fun hoff hmis => ?misaligned, fun hbase hread => ?_⟩
  case misaligned =>
    rw [hexec]
    simp [whenBaseAligned, misalignedWord, hmis, hoff]
  obtain ⟨hl, hregs⟩ := readBlock_done hread
  obtain ⟨hvalues, hback, hothers, -, hcpsr, hrest, hmem⟩ := blockLoaded_of_reads (s.readReg rn) hok hl hregs
  have hne := ne_pc_of_append hregs rfl
  rw [whenBaseAligned_of_accepted fun _ => hbase, loadBlock_of_done hread, finishLoad_of_pc _ hne rfl] at hexec
  generalize u.blockLoaded bm rn list (s.readReg rn) (vs ++ [{ reg := 15#4, value := v }]) = t at *
  have hspsr : t.spsrNow = s.spsrNow := by rw [State.spsrNow, hrest.control.spsr, hcpsr]; rfl
  rw [blockBank_of_current _ fun _ => hlist] at hvalues hothers
  refine ⟨fun hlow => hexec.trans (loadBlockPc_of_low_bits hlow), fun hv hs p hp hbad => ?badMode,
    fun hv cpsr hto => ?completes⟩
  case badMode =>
    rw [hexec, loadBlockPc_of_word hv, if_pos hs]
    exact returnTo_of_bad_mode (hspsr.trans hp) hbad
  case completes =>
    rw [← hspsr, ← hcpsr] at hto
    refine ⟨_, hexec.trans (loadBlockPc_completes hv hto), rfl, rfl, fun x hx => ?_, hback, fun p hp => ?regs,
      hrest.control.spsr, hrest.control.cp15, hrest.hazard, ?outside, hmem⟩
    · exact hvalues x (List.mem_append_left _ hx) (hne x hx)
    case regs =>
      refine hothers p (fun r hr => hp r ?_) fun hw => hp rn (by simp [hw])
      split
      · exact List.mem_cons_of_mem _ hr
      · exact hr
    case outside => exact ⟨hrest.outside.oldMaps, hrest.outside.plat, hrest.outside.env⟩

end Sys2Proof.Machine
end

section
/-! PROOF. O39: the LDM that aborts (47_block_data_transfer.md R353; 60_exceptions.md R435). -/

namespace Sys2Proof.Machine

/-! ### The transfer that aborts -/

/-- The aborting read is the one after those that were done (47_block_data_transfer.md R341). -/
theorem far_of_readBlock_aborted {rs : List Reg} {a far : Word} {f : Option FaultStatus} {s u : State} {vs : List Loaded}
    (h : readBlock rs a s = .aborted vs far f u) : far = wordAligned a + BitVec.ofNat 32 (4 * vs.length) := by
  induction rs generalizing a s vs with
  | nil => cases h
  | cons r rs ih =>
    unfold readBlock at h
    cases hload : loadWord .read s.privileged a s with
    | ok v t =>
      simp only [hload] at h
      cases hrs : readBlock rs (a + 4#32) t with
      | aborted ws =>
        rw [hrs] at h
        cases h
        rw [ih hrs, wordAligned_add_four, add_four_add_words, List.length_cons]
      | done | stuck | refused => rw [hrs] at h; cases h
    | abort =>
      rw [hload] at h
      cases h
      simp
    | stuck | refused => rw [hload] at h; cases h

/-! ### The Data Abort -/

/-- What a Data Abort from `w` leaves, field by field (60_exceptions.md R430, R435, R439, R440). -/
structure EntersAbort (f : Option FaultStatus) (far : Word) (w t : State) : Prop where
  pc      : t.pc = 0x10#32
  regs    : t.regs = w.regs.set .r14Abt (w.pc + 8#32)
  spsr    : t.spsr = { w.spsr with abt := w.cpsr.saved }
  cpsr    : t.cpsr = { w.cpsr with i := true, mode := .abt }
  noted   : FaultNoted f far w t
  hazard  : t.bankHazard = w.bankHazard
  outside : OutsideKept w t
  mem     : MemKept w t

theorem dataAbort_enters (f : Option FaultStatus) (far : Word) (w : State) :
    ∃ t, dataAbort f far w = .next t ∧ EntersAbort f far w t := by
  refine ⟨_, dataAbort_eq f far w, ?_⟩
  have hnoted : FaultNoted f far w (faultRecorded f far w) := faultNoted_faultRecorded far rfl
  rw [faultRecorded_eq far f w] at hnoted ⊢
  refine ⟨rfl, rfl, rfl, ?cpsr, hnoted, rfl, ⟨rfl, rfl, rfl⟩, fun _ => rfl, rfl⟩
  case cpsr => simp [Exc.setsF, Exc.mode]

/-- A fault is noted alike from two states with the same CP15. -/
theorem FaultNoted.congr {f : Option FaultStatus} {far : Word} {s w t : State} (h : FaultNoted f far w t)
    (hcp15 : w.cp15 = s.cp15) : FaultNoted f far s t := by
  cases f with
  | none => exact h.trans hcp15
  | some x => rw [FaultNoted, ← hcp15]; exact h

/-! ### The registers left -/

theorem loadBlock_of_aborted {bm : BlockMode} {rn : Reg} {list : BitVec 16} {s u : State} {vs : List Loaded} {far : Word}
    {f : Option FaultStatus} (h : readBlock (regsOf list) (blockStart bm (s.readReg rn) list) s = .aborted vs far f u) :
    loadBlock bm rn list s =
      dataAbort f far (leaveLoaded (blockBank true bm list s.cpsr.mode) (s.cpsr.mode.bank rn) vs u) := by
  simp only [loadBlock, h]

/-- Settles O39. -/
theorem loadMultipleAbort : Obligations.LoadMultipleAbort := by
  rintro c bm rn list s u vs far start f hc hok hmode rfl hfits hbase hread
  have hl := readBlock_aborted hread
  obtain ⟨⟨d, r, hleft⟩, hkept, hregs⟩ :=
    leaveLoaded_all (blockBank true bm list s.cpsr.mode) (s.cpsr.mode.bank rn) vs u
  have hexec := exec_ldm hc hok hmode hfits (c := c)
  rw [whenBaseAligned_of_accepted hbase, loadBlock_of_aborted hread] at hexec
  obtain ⟨t, ht, hpc, hset, hspsr, hcpsr, hnoted, hhazard, houtside, hmem⟩ := dataAbort_enters f far
    (leaveLoaded (blockBank true bm list s.cpsr.mode) (s.cpsr.mode.bank rn) vs u)
  have hother (p : PReg) (hp : p ≠ .r14Abt) : t.regs.get p =
      (leaveLoaded (blockBank true bm list s.cpsr.mode) (s.cpsr.mode.bank rn) vs u).regs.get p := by
    rw [hset, Regs.get_set_of_ne _ _ hp]
  rw [hleft] at hset hspsr hcpsr hnoted hhazard houtside hmem
  refine ⟨t, hexec.trans ht, hpc, ?link, ?spsr, ?cpsr, far_of_readBlock_aborted hread, hnoted.congr hl.cp15,
    hhazard.trans hl.bankHazard, ?outside, hl.memKept.trans hmem, fun p hp hne => ?base, fun p hne => ?regs⟩
  case link => rw [hset, ← hl.pc]; rfl
  case spsr => rw [hspsr, ← hl.spsr, ← hl.cpsr]; rfl
  case cpsr => rw [hcpsr, ← hl.cpsr]; rfl
  case outside =>
    exact ⟨houtside.oldMaps.trans hl.oldMaps, houtside.plat.trans hl.plat, houtside.env.trans hl.env⟩
  case base => rw [hother p hne, hkept p hp.symm, hl.regs]
  case regs =>
    rw [hother p hne, ← hl.regs]
    exact hregs p

end Sys2Proof.Machine
end

section
/-! PROOF. O40: the STM that completes (47_block_data_transfer.md R341, R346, R351). -/

namespace Sys2Proof.Machine

section
variable {s t : State}

theorem SameButStores.regs (h : SameButStores s t) : t.regs = s.regs := by rw [h]; rfl
theorem SameButStores.cpsr (h : SameButStores s t) : t.cpsr = s.cpsr := by rw [h]; rfl
theorem SameButStores.spsr (h : SameButStores s t) : t.spsr = s.spsr := by rw [h]; rfl
theorem SameButStores.cp15 (h : SameButStores s t) : t.cp15 = s.cp15 := by rw [h]; rfl
theorem SameButStores.bankHazard (h : SameButStores s t) : t.bankHazard = s.bankHazard := by rw [h]; rfl
theorem SameButStores.env (h : SameButStores s t) : t.env = s.env := by rw [h]; rfl
theorem SameButStores.plat (h : SameButStores s t) : t.plat = s.plat := by rw [h]; rfl

/-- What the ABORT input fails, and what stands where, do not change with a store. -/
theorem SameButStores.aborted (h : SameButStores s t) : t.aborted = s.aborted := by
  unfold State.aborted State.inputs; rw [h.env]

theorem SameButStores.kindAt (h : SameButStores s t) : t.kindAt = s.kindAt := by
  unfold State.kindAt; rw [h.plat]

theorem AllKept.next4 (s : State) : AllKept s s.next4 := .withPc s (s.pc + 4#32)

/-- Stores keep what an access keeps, but for the mappings on record. -/
theorem SameButStores.restKept (h : SameButStores s t) : RestKept s (t.withOldMaps s.oldMaps) where
  control := ⟨congrArg Cpsr.i h.cpsr, congrArg Cpsr.f h.cpsr, congrArg Cpsr.mode h.cpsr, h.spsr, h.cp15⟩
  outside := ⟨rfl, h.plat, h.env⟩
  hazard := h.bankHazard

end

section
variable {bm : BlockMode} {rn : Reg} {list : BitVec 16} {s u : State}

theorem State.storeValueOf_eq (s : State) (m : Mode) (r : Reg) :
    s.storeValueOf m r = if r = 15#4 then s.storedPc else s.readRegOf m r := by
  simp only [State.storeValueOf, isPc_iff]

/-- S selects the User bank of an STM, whether R15 is in the list or not (47_block_data_transfer.md R351). -/
theorem blockBank_of_store (bm : BlockMode) (list : BitVec 16) (m : Mode) :
    blockBank false bm list m = if bm.s then .usr else m := by
  simp [blockBank]

/-- The values of an STM are the registers of the current mode, or with S of User mode (47_block_data_transfer.md R346,
R351). -/
theorem storedValues_eq (bm : BlockMode) (list : BitVec 16) (s : State) : storedValues bm list s =
    (regsOf list).map fun r => if r = 15#4 then s.storedPc else s.readRegOf (if bm.s then .usr else s.cpsr.mode) r := by
  rw [storedValues, blockBank_of_store]
  exact List.map_congr_left fun r _ => s.storeValueOf_eq _ r

theorem length_storedValues (bm : BlockMode) (list : BitVec 16) (s : State) :
    (storedValues bm list s).length = (regsOf list).length := List.length_map ..

/-- After its writes an STM writes its base back and goes on (47_block_data_transfer.md R346). -/
theorem storeBlock_of_done
    (h : writeBlock (storedValues bm list s) (blockStart bm (s.readReg rn) list) s = .done () u) :
    storeBlock bm rn list s = advance (blockWriteBack bm rn list (s.readReg rn) u) := by
  simp only [storeBlock, h]

end

/-- Settles O40. -/
theorem storeMultiple : Obligations.StoreMultiple := by
  rintro c bm rn list s u start values ⟨hc, hpc⟩ hok hmode rfl hfits hcheck rfl hwrite
  rw [← storedValues_eq] at hwrite
  have hstores := writeBlock_done hwrite
  obtain ⟨p, hp⟩ := Mode.bank_some s.cpsr.mode rn (rn_ne_of_storeBlockOk hok)
  obtain ⟨hback, hbase, hothers⟩ := blockWriteBack_all bm list (s.readReg rn) u (by rw [hstores.cpsr]; exact hp)
  have hkept := hback.allKept
  have hexec : exec (.stm c bm rn list) s = advance (blockWriteBack bm rn list (s.readReg rn) u) := by
    rw [exec_stm hc hok hmode hfits, whenBaseAligned_of_word _ hcheck rfl, storeBlock_of_done hwrite]
  have hpc' : (blockWriteBack bm rn list (s.readReg rn) u).pc = s.pc := hback.pc.trans hstores.pc
  have hcpsr : (blockWriteBack bm rn list (s.readReg rn) u).cpsr = s.cpsr := hback.cpsr.trans hstores.cpsr
  refine ⟨_, hexec.trans (advance_of_ne (hpc'.trans_ne hpc)), by rw [hback]; rfl, hkept.mem.2, fun hw => ?base,
    congrArg (· + 4#32) hpc', fun q hq => ?regs, congrArg Cpsr.flags hcpsr, hkept.rest.outside.oldMaps, ?rest⟩
  case base =>
    rw [State.readReg, State.readRegOf_eq (p := p) _ _ (by rw [← hp, ← hcpsr]; rfl)]
    exact hbase hw
  case regs =>
    refine (hothers q fun hw hqp => hq rn (by simp [hw]) (by rw [hp, hqp])).trans ?_
    rw [hstores.regs]
  case rest => exact hstores.restKept.trans ((hkept.trans (.next4 _)).rest.withOldMaps _)

end Sys2Proof.Machine
end

section
/-! PROOF. O41: the words an STM writes with the MMU off (47_block_data_transfer.md R341, R346; 20_memory.md R91, R114). The
words of a block are its first word, then those of the rest. -/

namespace Sys2Proof.Machine

/-! ### Frames of memory -/

section
variable {lo n lo' n' : Nat} {s t u : State}

theorem SameOutside.refl (lo n : Nat) (s : State) : SameOutside lo n s s := fun _ _ => rfl

theorem SameOutside.trans (h : SameOutside lo n s t) (k : SameOutside lo n t u) : SameOutside lo n s u := fun a ha =>
  (k a ha).trans (h a ha)

theorem SameOutside.mono (h : SameOutside lo n s t) (hin : ∀ a, inCells lo n a → inCells lo' n' a) :
    SameOutside lo' n' s t := fun a ha => h a (mt (hin a) ha)

/-- A word whose four cells are as before reads as before. -/
theorem SameOutside.readWord (h : SameOutside lo n s t) {a : Nat} (ha : a + 4 ≤ lo ∨ lo + n ≤ a ∨ n = 0) :
    t.mem.readWord a = s.mem.readWord a := by
  have hcell (j : Nat) (hj : j < 4) : t.mem.read (a + j) = s.mem.read (a + j) := h _ (by rw [inCells]; omega)
  rw [Memory.readWord, Memory.readWord, hcell 3 (by decide), hcell 2 (by decide), hcell 1 (by decide),
    show t.mem.read a = s.mem.read a from hcell 0 (by decide)]

end

/-! ### Words written -/

/-- From `s` to `t` the words `values` are written from the word address `a` on: they, and no other, now await a barrier
that did not, every byte outside them is as before, and so are the mappings on record (20_memory.md R91, R114). -/
structure WordsWritten (values : List Word) (a : Word) (s t : State) : Prop where
  words   : ∀ k v, values[k]? = some v → t.mem.readWord (a.toNat + 4 * k) = v
  outside : SameOutside a.toNat (4 * values.length) s t
  stale   : ∀ k va, k < values.length → staleAt t va (a + BitVec.ofNat 32 (4 * k)) = true
  others  : ∀ va pa, (∀ k, k < values.length → pa ≠ a + BitVec.ofNat 32 (4 * k)) →
    staleAt t va pa = staleAt s va pa
  oldMaps : t.oldMaps = s.oldMaps

/-- The word `4 * k` above `a` in a block that stays in the address space. -/
theorem toNat_word_of_fits {a : Word} {n k : Nat} (hfits : a.toNat + 4 * n ≤ 2 ^ 32) (hk : k < n) :
    (a + BitVec.ofNat 32 (4 * k)).toNat = a.toNat + 4 * k := by
  rw [toNat_add_ofNat_word, Nat.mod_eq_of_lt (by omega)]

/-- The rest of a block that stays in the address space begins 4 above it, where there is a rest. -/
theorem toNat_add_four_of_fits {a : Word} {n : Nat} (hfits : a.toNat + 4 * (n + 1) ≤ 2 ^ 32) :
    (a + 4#32).toNat = a.toNat + 4 ∨ n = 0 ∧ (a + 4#32).toNat = 0 := by
  rw [BitVec.toNat_add]
  have := a.isLt
  simp only [BitVec.toNat_ofNat]
  omega

section
variable {a : Word} {s t u : State}

theorem WordsWritten.nil (a : Word) (s : State) : WordsWritten [] a s s :=
  ⟨nofun, .refl _ _ s, nofun, fun _ _ _ => rfl, rfl⟩

/-- The state after the word `v` is written to RAM at the word address `a` (20_memory.md R91, R114). -/
def State.wordStored (s : State) (a v : Word) : State :=
  s.stored { pa := a, rom := false } (s.mem.writeWord (wordCell a) v)

@[simp] theorem State.wordStored_mem (s : State) (a v : Word) : (s.wordStored a v).mem = s.mem.writeWord a.toNat v :=
  State.stored_mem ..

/-- A word ends in the address space (20_memory.md R87). -/
theorem toNat_lt_of_wordAligned (ha : wordAligned a = a) : a.toNat + 3 < 2 ^ 32 := by
  have hmod := (extractLsb'_two_eq_zero_iff a).1 ((wordAligned_eq_self_iff a).1 ha)
  have := a.isLt
  omega

theorem WordsWritten.wordStored (v : Word) (hwf : s.mem.wf = true) (hm : s.cp15.control.m = false)
    (ha : wordAligned a = a) : WordsWritten [v] a s (s.wordStored a v) := by
  have hzero {k : Nat} (hk : k < 1) : a + BitVec.ofNat 32 (4 * k) = a := by
    obtain rfl : k = 0 := by omega
    simp
  have halign : wordAligned (Reached.pa { pa := a, rom := false }) = a := ha
  refine ⟨fun k w hk => ?words, fun x hx => ?outside, fun k va hk => ?stale, fun va pa hpa => ?others, ?oldMaps⟩
  case words =>
    obtain ⟨rfl, rfl⟩ : k = 0 ∧ v = w := by cases k <;> simp_all
    rw [State.wordStored_mem]
    exact Memory.readWord_writeWord _ _ _ hwf (toNat_lt_of_wordAligned ha)
  case outside => rw [State.wordStored_mem, Memory.read_writeWord_outside _ _ _ hx]
  case stale =>
    have hstale := staleAt_stored s (r := { pa := a, rom := false }) (s.mem.writeWord (wordCell a) v) rfl va
    rw [halign] at hstale
    rw [hzero hk]
    exact hstale
  case others => exact staleAt_stored_of_ne _ _ _ _ (by rw [halign, ← hzero Nat.one_pos]; exact hpa 0 Nat.one_pos)
  case oldMaps => simp [State.wordStored, State.stored_oldMaps, remapsAt, hm]

/-- The first word of a block, then the others: none of them is the first. -/
theorem WordsWritten.cons {v : Word} {vs : List Word} (hfits : a.toNat + 4 * (vs.length + 1) ≤ 2 ^ 32)
    (hfirst : WordsWritten [v] a s t) (hrest : WordsWritten vs (a + 4#32) t u) : WordsWritten (v :: vs) a s u := by
  have hnext := toNat_add_four_of_fits hfits
  refine ⟨fun k w hk => ?words, ?outside, fun k va hk => ?stale, fun va pa hpa => ?others,
    hrest.oldMaps.trans hfirst.oldMaps⟩
  case words =>
    cases k with
    | zero =>
      rw [hrest.outside.readWord (by omega)]
      exact hfirst.words 0 w (by simpa using hk)
    | succ k =>
      have hlt := (List.getElem?_eq_some_iff.1 hk).1
      rw [List.length_cons] at hlt
      rw [show a.toNat + 4 * (k + 1) = (a + 4#32).toNat + 4 * k by omega]
      exact hrest.words k w (by simpa using hk)
  case outside =>
    refine (hfirst.outside.mono fun x hx => ?_).trans (hrest.outside.mono fun x hx => ?_) <;>
      simp only [inCells, List.length_cons, List.length_nil] at hx ⊢ <;> omega
  case stale =>
    cases k with
    | zero =>
      rw [hrest.others va _ fun j hj heq => ?_]
      · exact hfirst.stale 0 va (by simp)
      · have h := congrArg BitVec.toNat heq
        rw [add_four_add_words, toNat_word_of_fits hfits (by omega), toNat_word_of_fits hfits (by omega)] at h
        omega
    | succ k =>
      rw [← add_four_add_words]
      exact hrest.stale k va (by simpa using hk)
  case others =>
    rw [hrest.others va pa fun k hk => ?_, hfirst.others va pa fun k hk => hpa k ?_]
    · rw [List.length_singleton] at hk
      rw [List.length_cons]
      omega
    · rw [add_four_add_words]
      exact hpa (k + 1) (by simpa using hk)

end

/-! ### The writes -/

/-- A write that is done, and the writes after it. -/
theorem writeBlock_cons {v a : Word} {vs : List Word} {s t : State} (h : storeWord s.privileged a v s = .ok () t) :
    writeBlock (v :: vs) a s = writeBlock vs (a + 4#32) t := by
  simp only [writeBlock, h]

/-- With the MMU off a word write into RAM that is not aborted writes the word at the address itself (20_memory.md R91). -/
theorem storeWord_mmu_off {a : Word} {s : State} (priv : Bool) (v : Word) (hm : s.cp15.control.m = false)
    (ha : s.aborted (wordAligned a) 4 .write = false) (hk : s.kindAt (wordAligned a) 4 = some .ram) :
    storeWord priv a v s = .ok () (s.wordStored (wordAligned a) v) :=
  storeWord_of_reach v (reach_plain hm ha hk)

/-- The writes of any words into RAM. -/
theorem writeBlock_mmu_off (values : List Word) (start : Word) {s : State} (hwf : s.mem.wf = true)
    (hm : s.cp15.control.m = false) (hfits : (wordAligned start).toNat + 4 * values.length ≤ 2 ^ 32)
    (h : ∀ k, k < values.length → ∀ a, a = wordAligned start + BitVec.ofNat 32 (4 * k) →
      s.aborted a 4 .write = false ∧ s.kindAt a 4 = some .ram) :
    ∃ u, writeBlock values start s = .done () u ∧ WordsWritten values (wordAligned start) s u := by
  induction values generalizing start s with
  | nil => exact ⟨s, rfl, .nil _ s⟩
  | cons v vs ih =>
    rw [List.length_cons] at hfits
    obtain ⟨hab, hkind⟩ := h 0 (by simp) (wordAligned start) (by simp)
    have hstore := storeWord_mmu_off s.privileged v hm hab hkind
    have hfirst := WordsWritten.wordStored v hwf hm (wordAligned_idem start)
    have hkept := SameButStores.storeWord hstore
    have hwf' : (s.wordStored (wordAligned start) v).mem.wf = true := by
      rw [State.wordStored_mem]
      exact Memory.wf_writeWord _ _ _ hwf (toNat_lt_of_wordAligned (wordAligned_idem start))
    have hnext := toNat_add_four_of_fits hfits
    obtain ⟨u, hu, hrest⟩ := ih (start + 4#32) hwf' (by rw [hkept.cp15]; exact hm)
      (by rw [wordAligned_add_four]; omega) fun k hk a ha => by
        rw [hkept.aborted, hkept.kindAt]
        exact h (k + 1) (by simpa using hk) a (by rw [ha, wordAligned_add_four, add_four_add_words])
    rw [wordAligned_add_four] at hrest
    exact ⟨u, (writeBlock_cons hstore).trans hu, .cons hfits hfirst hrest⟩

/-- Settles O41. -/
theorem storeMultipleAddresses : Obligations.StoreMultipleAddresses := by
  intro values start s hwf hm hfits h
  obtain ⟨u, hu, hwords, houtside, hstale, hothers, hmaps⟩ := writeBlock_mmu_off values start hwf hm hfits h
  exact ⟨u, hu, hwords, houtside, hstale, hothers, hmaps⟩

end Sys2Proof.Machine
end

section
/-! PROOF. O42: the STM that aborts (47_block_data_transfer.md R354; 60_exceptions.md R435). First what stores can change
with the MMU off, whether they are made before the aborting transfer or left after it. -/

namespace Sys2Proof.Machine

/-! ### Stores with the MMU off -/

/-- From `s` to `t` at most the `n` bytes from `lo` on change of memory, and the mappings on record and CP15 do not. -/
structure StoresWithin (lo n : Nat) (s t : State) : Prop where
  outside : SameOutside lo n s t
  oldMaps : t.oldMaps = s.oldMaps
  cp15    : t.cp15 = s.cp15

section
variable {lo n lo' n' : Nat} {s t u : State} {a : Word}

theorem StoresWithin.trans (h : StoresWithin lo n s t) (k : StoresWithin lo n t u) : StoresWithin lo n s u :=
  ⟨h.outside.trans k.outside, k.oldMaps.trans h.oldMaps, k.cp15.trans h.cp15⟩

theorem StoresWithin.mono (h : StoresWithin lo n s t) (hin : ∀ x, inCells lo n x → inCells lo' n' x) :
    StoresWithin lo' n' s t := ⟨h.outside.mono hin, h.oldMaps, h.cp15⟩

theorem StoresWithin.of_lookup (lo n : Nat) (h : SameButLookup s t) : StoresWithin lo n s t :=
  ⟨fun _ _ => by rw [h.mem], h.oldMaps, h.cp15⟩

/-- The stores of a block are those of its first word, then those of the rest. -/
theorem StoresWithin.cons {k : Nat} (hfits : (wordAligned a).toNat + 4 * (k + 1) ≤ 2 ^ 32)
    (hfirst : StoresWithin (wordAligned a).toNat 4 s t)
    (hrest : StoresWithin (wordAligned (a + 4#32)).toNat (4 * k) t u) :
    StoresWithin (wordAligned a).toNat (4 * (k + 1)) s u := by
  have hnext := toNat_add_four_of_fits hfits
  rw [wordAligned_add_four] at hrest
  refine (hfirst.mono fun x hx => ?_).trans (hrest.mono fun x hx => ?_) <;> rw [inCells] at hx ⊢ <;> omega

/-- With the MMU off an access that goes through reaches the address itself (20_memory.md R105). -/
theorem pa_of_reach_mmu_off {kind : AccessKind} {priv : Bool} {r : Reached} (hm : s.cp15.control.m = false)
    (h : reach kind priv n a s = .ok r u) : r.pa = a := by
  have ht : translate kind priv a s = .ok { pa := a, via := none } s := translate_mmu_off hm
  cases hab : s.aborted a n kind with
  | true => rw [reach_of_translate_aborted ht hab] at h; cases h
  | false =>
    obtain ⟨hram, hrom, hdevice, hnone⟩ := reach_of_translate_ok ht hab
    cases hkind : s.kindAt a n with
    | none => rw [hnone hkind] at h; cases h
    | some kind => cases kind with
      | ram => rw [hram hkind] at h; cases h; rfl
      | rom => rw [hrom hkind] at h; cases h; rfl
      | device => rw [hdevice hkind] at h; cases h

/-- A store, to ROM or RAM, may change its word and puts no mapping on record (20_memory.md R91; log 50). -/
theorem storesWithin_storeWord {priv : Bool} {v : Word} (hm : s.cp15.control.m = false)
    (h : storeWord priv a v s = .ok () t) : StoresWithin (wordAligned a).toNat 4 s t := by
  have hcp15 := (SameButStores.storeWord h).cp15
  obtain ⟨r, u, hr, rfl⟩ := storeWord_ok h
  have hl := SameButLookup.of_reach_ok hr
  refine (StoresWithin.of_lookup _ _ hl).trans ⟨fun x hx => ?outside, ?oldMaps, hcp15.trans hl.cp15.symm⟩
  case outside =>
    rw [← pa_of_reach_mmu_off hm hr] at hx
    rw [State.stored_mem]
    split
    · rfl
    · exact Memory.read_writeWord_outside _ _ _ hx
  case oldMaps => simp [State.stored_oldMaps, remapsAt, hl.cp15, hm]

/-- The writes of an STM that are done. -/
theorem storesWithin_writeBlock {vs : List Word} (hm : s.cp15.control.m = false)
    (hfits : (wordAligned a).toNat + 4 * vs.length ≤ 2 ^ 32) (h : writeBlock vs a s = .done () u) :
    StoresWithin (wordAligned a).toNat (4 * vs.length) s u := by
  induction vs generalizing a s with
  | nil => cases h; exact .of_lookup _ _ (.refl _)
  | cons v vs ih =>
    rw [List.length_cons] at hfits ⊢
    have hnext := toNat_add_four_of_fits hfits
    cases hstore : storeWord s.privileged a v s with
    | ok x t =>
      have hfirst := storesWithin_storeWord hm hstore
      rw [writeBlock_cons hstore] at h
      exact .cons hfits hfirst (ih (by rw [hfirst.cp15]; exact hm) (by rw [wordAligned_add_four]; omega) h)
    | abort | stuck | refused => simp only [writeBlock, hstore] at h; cases h

/-- A word after the aborting one is left, or written where it can be (47_block_data_transfer.md R354; log 13). -/
theorem leaveStored_cons (v : Word) (vs : List Word) (a : Word) (s : State) :
    ∃ t, leaveStored (v :: vs) a s = leaveStored vs (a + 4#32) t ∧
      (t = s.drawn ∨ storeWord s.privileged a v s.drawn = .ok () t) := by
  rw [leaveStored]
  split
  · cases hstore : storeWord s.privileged a v s.drawn with
    | ok x t => exact ⟨t, rfl, .inr rfl⟩
    | abort | stuck | refused => exact ⟨_, rfl, .inl rfl⟩
  · exact ⟨_, rfl, .inl rfl⟩

/-- The words after the aborting one. -/
theorem storesWithin_leaveStored (vs : List Word) (hm : s.cp15.control.m = false)
    (hfits : (wordAligned a).toNat + 4 * vs.length ≤ 2 ^ 32) :
    StoresWithin (wordAligned a).toNat (4 * vs.length) s (leaveStored vs a s) := by
  induction vs generalizing a s with
  | nil => exact .of_lookup _ _ (.refl _)
  | cons v vs ih =>
    rw [List.length_cons] at hfits ⊢
    have hnext := toNat_add_four_of_fits hfits
    obtain ⟨t, ht, hcase⟩ := leaveStored_cons v vs a s
    have hdrawn := StoresWithin.of_lookup (wordAligned a).toNat 4 (.drawn s)
    have hfirst : StoresWithin (wordAligned a).toNat 4 s t := by
      rcases hcase with rfl | hstore
      · exact hdrawn
      · exact hdrawn.trans (storesWithin_storeWord hm hstore)
    rw [ht]
    exact .cons hfits hfirst (ih (by rw [hfirst.cp15]; exact hm) (by rw [wordAligned_add_four]; omega))

end

/-! ### The Data Abort -/

/-- A Data Abort after stores is that of the instruction, and leaves what the stores left (60_exceptions.md R435, R440). -/
theorem abortTaken_after_stores {s w : State} {f : Option FaultStatus} (far : Word) (h : SameButStores s w) :
    ∃ t, dataAbort f far w = .next t ∧ AbortTaken f far s (t.withOldMaps s.oldMaps) ∧
      t.mem = w.mem ∧ t.stale = w.stale ∧ t.oldMaps = w.oldMaps := by
  have hnoted : FaultNoted f far s (faultRecorded f far w) := faultNoted_faultRecorded far h.cp15
  refine ⟨_, dataAbort_eq f far w, ?_⟩
  rw [faultRecorded_eq] at hnoted ⊢
  refine ⟨⟨?entered, hnoted, ⟨rfl, h.plat, h.env⟩, h.bankHazard⟩, rfl, rfl, rfl⟩
  rw [h.pc]
  exact takeException_entered .dataAbort _ (t := (w.withCp15 (faultRecorded f far w).cp15).withOldMaps s.oldMaps)
    h.regs h.cpsr h.spsr

/-! ### The aborting transfer -/

theorem writeBlock_of_abort {v a : Word} {vs : List Word} {f : Option FaultStatus} {s t : State}
    (h : storeWord s.privileged a v s = .abort f t) :
    writeBlock (v :: vs) a s = .aborted () (wordAligned a) f (leaveStored vs (a + 4#32) t) := by
  simp only [writeBlock, h]

/-- The stores before the aborting one are done, and those after it left (47_block_data_transfer.md R354). -/
theorem writeBlock_aborts {before after : List Word} {w start : Word} {f : Option FaultStatus} {s u v : State}
    (hwrite : writeBlock before start s = .done () u)
    (hreach : reach .write s.privileged 4 (wordAligned start + BitVec.ofNat 32 (4 * before.length)) u = .abort f v) :
    writeBlock (before ++ w :: after) start s =
      .aborted () (wordAligned start + BitVec.ofNat 32 (4 * before.length)) f
        (leaveStored after (start + BitVec.ofNat 32 (4 * (before.length + 1))) v) := by
  have hpriv : u.privileged = s.privileged := by rw [State.privileged, (writeBlock_done hwrite).cpsr]; rfl
  rw [← wordAligned_add_words, ← hpriv] at hreach
  rw [writeBlock_append hwrite, writeBlock_of_abort (storeWord_of_abort w hreach), wordAligned_add_words, BitVec.add_assoc,
    Nat.mul_succ, BitVec.ofNat_add]

theorem storeBlock_of_aborted {bm : BlockMode} {rn : Reg} {list : BitVec 16} {s u : State} {far : Word}
    {f : Option FaultStatus}
    (h : writeBlock (storedValues bm list s) (blockStart bm (s.readReg rn) list) s = .aborted () far f u) :
    storeBlock bm rn list s = dataAbort f far u := by
  simp only [storeBlock, h]

/-- Settles O42. -/
theorem storeMultipleAbort : Obligations.StoreMultipleAbort := by
  rintro c bm rn list s u v start w before after f hc hok hmode rfl hfits hcheck hvalues hwrite a rfl hreach
  have hl := SameButLookup.of_reach_abort hreach
  have hblock := writeBlock_aborts (w := w) (after := after) hwrite hreach
  have hexec := exec_stm hc hok hmode hfits (c := c)
  rw [← hvalues] at hblock
  rw [whenBaseAligned_of_word _ hcheck rfl, storeBlock_of_aborted hblock] at hexec
  have hlen : before.length + (after.length + 1) = (regsOf list).length := by
    rw [← length_storedValues bm list s, hvalues, List.length_append, List.length_cons]
  have hin : (wordAligned (blockStart bm (s.readReg rn) list)).toNat + 4 * (regsOf list).length ≤ 2 ^ 32 :=
    of_decide_eq_true hfits
  generalize blockStart bm (s.readReg rn) list = start at *
  have hstores := ((writeBlock_done hwrite).trans (.lookup hl)).trans
    (leaveStored_all after (start + BitVec.ofNat 32 (4 * (before.length + 1))) v)
  obtain ⟨t, ht, habort, hmem, hstale, hmaps⟩ := abortTaken_after_stores (f := f)
    (wordAligned start + BitVec.ofNat 32 (4 * before.length)) hstores
  refine ⟨t, hexec.trans ht, habort, ?last, fun hm => ?mmuOff⟩
  case last =>
    rintro rfl
    exact ⟨hmem.trans hl.mem, hstale.trans hl.stale, hmaps.trans hl.oldMaps⟩
  case mmuOff =>
    have hbefore := storesWithin_writeBlock hm (by omega) hwrite
    have hrest : (wordAligned (start + BitVec.ofNat 32 (4 * (before.length + 1)))).toNat =
        ((wordAligned start).toNat + 4 * (before.length + 1)) % 2 ^ 32 := by
      rw [wordAligned_add_words, toNat_add_ofNat_word]
    have hafter := storesWithin_leaveStored (s := v) (a := start + BitVec.ofNat 32 (4 * (before.length + 1))) after
      (by rw [hl.cp15, hbefore.cp15]; exact hm) (by omega)
    have houtside := hafter.outside.mono (lo' := (wordAligned start).toNat + 4 * (before.length + 1))
      (n' := 4 * after.length) fun x hx => by rw [inCells] at hx ⊢; omega
    refine ⟨hmaps.trans (hafter.oldMaps.trans (hl.oldMaps.trans hbefore.oldMaps)), fun x hx => ?_⟩
    rw [hmem, houtside x hx, hl.mem]

end Sys2Proof.Machine
end

section
/-! PROOF. O50: the exception entry (60_exceptions.md R430, R439). O44, O46, O47: the instructions whose meaning is an entry
(48_swap_swi_imb.md R375 to R383; 49_coprocessor_undefined.md R398 to R400). -/

namespace Sys2Proof.Machine

/-! ### The entry -/

/-- Beside what `Entered` says, an entry keeps CP15, memory and the rest of the state (60_exceptions.md R430). -/
theorem takeException_kept (e : Exc) (ret : Word) (s : State) :
    Entered e ret s (takeException e ret s) ∧ (takeException e ret s).cp15 = s.cp15 ∧
      OtherKept s (takeException e ret s) ∧ MemKept s (takeException e ret s) :=
  ⟨takeException_entered e ret rfl rfl rfl, rfl, ⟨⟨rfl, rfl, rfl⟩, rfl, rfl⟩, fun _ => rfl, rfl⟩

/-- Settles O50. -/
theorem exceptionEntry : Obligations.ExceptionEntry :=
  ⟨takeException_kept, ⟨rfl, rfl⟩, ⟨rfl, rfl⟩, ⟨rfl, rfl⟩, ⟨rfl, rfl⟩, ⟨rfl, rfl⟩, ⟨rfl, rfl⟩⟩

/-! ### The undefined instruction trap -/

section
variable {s : State}

theorem exec_of_trapsAlways {i : Instr} (h : trapsAlways i = true) (hc : s.cpsr.flags.pass i.cond = true) :
    exec i s = undefinedTrap s := by
  cases i with
  | undefined | ldc | stc | cdp | mrcOther | mcrOther => exact whenPassed_of_pass hc
  | _ => cases h

theorem State.not_privileged_of_usr (hm : s.cpsr.mode = .usr) : ¬ s.privileged = true := by
  rw [State.privileged, hm]; decide

/-- In User mode no access to CP15 is made (49_coprocessor_undefined.md R398 a; D16). -/
theorem exec_cp15_of_usr {c : Cond} {op1 op2 : BitVec 3} {crn crm : BitVec 4} {rd : Reg} {i : Instr}
    (hc : s.cpsr.flags.pass c = true) (hm : s.cpsr.mode = .usr)
    (hi : i = .mrc c op1 crn rd op2 crm ∨ i = .mcr c op1 crn rd op2 crm) : exec i s = undefinedTrap s := by
  rcases hi with rfl | rfl <;> exact (whenPassed_of_pass hc).trans (if_neg (State.not_privileged_of_usr hm))

end

/-- Settles O46. -/
theorem undefinedTraps : Obligations.UndefinedTraps := fun _ s h hc =>
  ⟨_, exec_of_trapsAlways h hc, takeException_kept .undefined (s.pc + 4#32) s⟩

/-- Settles O47. -/
theorem userCp15Traps : Obligations.UserCp15Traps := fun _ _ _ _ _ _ s hc hm _ hi =>
  ⟨_, exec_cp15_of_usr hc hm hi, takeException_kept .undefined (s.pc + 4#32) s⟩

/-! ### The software interrupt -/

/-- An IMBRange covers the fetches from its range and no other (48_swap_swi_imb.md R381, R382). -/
theorem staleAt_barrierOver_iff (s : State) (x : AddrRange) (va pa : Word) :
    staleAt (s.barrierOver x) va pa = true ↔
      staleAt s va pa = true ∧ ¬ (x.first.toNat ≤ va.toNat + 3 ∧ va.toNat ≤ x.last.toNat) := by
  rw [staleAt_barrierOver, Bool.and_eq_true, Bool.not_eq_true', AddrRange.meets_eq_false_iff]

/-- Settles O44: each is the entry from the state that its barrier leaves. -/
theorem softwareInterrupts : Obligations.SoftwareInterrupts := by
  intro c comment s hc
  refine ⟨?swi, ?imb, ?imbRange⟩
  case swi => exact ⟨_, whenPassed_of_pass hc, takeException_kept .swi (s.pc + 4#32) s⟩
  case imb =>
    exact ⟨_, whenPassed_of_pass hc, takeException_entered .swi _ rfl rfl rfl, rfl, ⟨⟨rfl, rfl, rfl⟩, rfl, rfl⟩,
      staleAt_barrier s, rfl, fun _ => rfl⟩
  case imbRange =>
    exact ⟨_, whenPassed_of_pass hc, takeException_entered .swi _ rfl rfl rfl, rfl, ⟨⟨rfl, rfl, rfl⟩, rfl, rfl⟩,
      staleAt_barrierOver_iff s _, rfl, fun _ => rfl⟩

end Sys2Proof.Machine
end

section
/-! PROOF. O51: the normal return from an exception (60_exceptions.md R439, R465, R466). First that what an entry saves is
what a return restores, then that the instruction of R439 is that return. -/

namespace Sys2Proof.Machine

@[simp] theorem Mode.ofBits_bits (m : Mode) : Mode.ofBits m.bits = some m := by cases m <;> rfl

@[simp] theorem Cpsr.restored_saved (c : Cpsr) : c.saved.restored = some c := Spsr.restored_of_mode c.mode.ofBits_bits

theorem takeException_spsrNow (e : Exc) (ret : Word) (s : State) :
    (takeException e ret s).spsrNow = some s.cpsr.saved :=
  (takeException_entered e ret rfl rfl rfl).saved

theorem takeException_readReg_link (e : Exc) (ret : Word) (s : State) : (takeException e ret s).readReg 14#4 = ret :=
  (takeException_entered e ret rfl rfl rfl).link

theorem result_alu_sub (a : Word) (sh : ShifterOut) (old : Flags) : (alu .sub a sh old).result = a - sh.op2 := by
  rw [BitVec.sub_eq_add_neg, BitVec.neg_eq_not_add, ← BitVec.add_assoc]
  simp [alu, sumOut, addWithCarry, BitVec.ofNat_add, -BitVec.toNat_not]

/-- MOVS PC,R14 and SUBS PC,R14,#n return to R14 less the offset (60_exceptions.md R439, R465; 42_data_processing.md R213). -/
theorem exec_returnInstr (e : Exc) (s : State) :
    exec e.returnInstr s = returnTo (s.readReg 14#4 - e.returnOffset) s := by
  have hmov : exec (.movReg .al true 15#4 { amount := 0#5, type := .lsl, rm := 14#4 }) s =
      returnTo (s.readReg 14#4) s := (exec_regInstr .mov true 0#4 15#4 _ rfl).trans (writeAlu_return _ rfl)
  have hsub (imm8 : BitVec 8) : exec (.subImm .al true 14#4 15#4 { rotate := 0#4, imm8 := imm8 }) s =
      returnTo (s.readReg 14#4 - rotatedValue { rotate := 0#4, imm8 := imm8 }) s :=
    (exec_immInstr .sub true 14#4 15#4 _ rfl).trans ((writeAlu_return _ rfl).trans (by rw [result_alu_sub]; rfl))
  cases e with
  | undefined | swi => rw [Exc.returnOffset, BitVec.sub_zero]; exact hmov
  | prefetchAbort | irq | fiq => exact hsub 4#8
  | dataAbort => exact hsub 8#8

/-- Settles O51. -/
theorem entryThenReturn : Obligations.EntryThenReturn := by
  intro e ret s
  obtain ⟨hentered, hcp15, hother, hmem⟩ := takeException_kept e ret s
  have hexec : exec e.returnInstr (takeException e ret s) = returnTo (ret - e.returnOffset) (takeException e ret s) := by
    rw [exec_returnInstr, takeException_readReg_link]
  have hreturn := returnTo_of_some (target := ret - e.returnOffset) (takeException_spsrNow e ret s) s.cpsr.restored_saved
  exact ⟨_, hexec.trans hreturn, rfl, rfl, hentered.regs, hentered.spsrs, hcp15,
    ⟨⟨hother.outside.oldMaps, hother.outside.plat, hother.outside.env⟩, hother.hazard, hother.tlb⟩, hmem⟩

end Sys2Proof.Machine
end

section
/-! PROOF. O52, O53: the end of a step (60_exceptions.md R431, R432, R434, R452). The levels of the step are still the first
inputs listed when its instruction is done. -/

namespace Sys2Proof.Machine

/-! ### The inputs of a step -/

/-- No change that an instruction makes is one of the inputs. -/
theorem keeps_env (x : List Inputs) : Keeps (fun t => t.env = x) fun t => t.env = x where
  lookup := fun h ⟨hl, _⟩ => hl.env.trans h
  flags := fun _ h => h
  cpsr := fun _ h _ => h
  spsr := fun _ h _ => h
  cp15 := fun _ h _ => h
  reg := fun _ h _ _ => h
  pc := fun _ h => h
  next := fun h => h
  stored := fun r m h _ => by rw [State.stored_eq]; exact h
  remapped := fun changed h => by rw [State.remapped_eq]; exact h
  tlb := fun h _ => h
  hazard := fun _ h => h
  barrier := fun h => h
  barrierOver := fun _ h => h
  done := id
  entry := fun _ _ h => h
  faultEntry := fun _ _ _ h => h

theorem runInstruction_env {s t : State} (h : runInstruction s = .next t) : t.env = s.env :=
  (keeps_env s.env).runInstruction rfl t h

theorem State.inputs_eq_of_env {s t : State} (h : t.env = s.env) : t.inputs = s.inputs := by
  rw [State.inputs, State.inputs, h]

/-! ### The interrupts -/

section
variable {s t : State}

theorem step_of_runInstruction (hreset : s.inputs.reset = false) (h : runInstruction s = .next t) :
    step s = .next (takeInterrupt t).nextInputs := by
  simp only [step, hreset, h, endStep, Bool.false_eq_true, if_false]

/-- A line that is not asserted, or is masked, takes no interrupt (60_exceptions.md R431, R432). -/
theorem unmasked_eq_false_iff (line mask : Bool) : (line && !mask) = false ↔ line = false ∨ mask = true := by
  cases line <;> simp

theorem takeInterrupt_of_fiq (hfiq : t.inputs.fiqLine = true) (hf : t.cpsr.f = false) :
    takeInterrupt t = takeException .fiq (t.pc + 4#32) t := by
  rw [takeInterrupt, hfiq, hf]
  rfl

/-- Without an unmasked FIQ an unmasked IRQ is taken (60_exceptions.md R431, R432). -/
theorem takeInterrupt_of_irq (hfiq : t.inputs.fiqLine = false ∨ t.cpsr.f = true) (hirq : t.inputs.irqLine = true)
    (hi : t.cpsr.i = false) : takeInterrupt t = takeException .irq (t.pc + 4#32) t := by
  rw [takeInterrupt, (unmasked_eq_false_iff _ _).2 hfiq, hirq, hi]
  rfl

theorem takeInterrupt_of_none (hfiq : t.inputs.fiqLine = false ∨ t.cpsr.f = true)
    (hirq : t.inputs.irqLine = false ∨ t.cpsr.i = true) : takeInterrupt t = t := by
  rw [takeInterrupt, (unmasked_eq_false_iff _ _).2 hfiq, (unmasked_eq_false_iff _ _).2 hirq]
  rfl

/-- The inputs of the next step are nothing that an entry speaks of. -/
theorem Entered.nextInputs {e : Exc} {ret : Word} (h : Entered e ret s t) : Entered e ret s t.nextInputs :=
  ⟨h.pc, h.link, h.regs, h.saved, h.spsrs, h.flags, h.i, h.f, h.mode⟩

/-- An interrupt taken at the end of a step (60_exceptions.md R452). -/
theorem takeException_nextInputs (e : Exc) (ret : Word) (t : State) :
    Entered e ret t (takeException e ret t).nextInputs ∧ (takeException e ret t).nextInputs.cp15 = t.cp15 ∧
      OtherKept t ((takeException e ret t).nextInputs.withEnv t.env) ∧
      (takeException e ret t).nextInputs.env = t.env.tail ∧ MemKept t (takeException e ret t).nextInputs :=
  ⟨(takeException_entered e ret rfl rfl rfl).nextInputs, rfl, ⟨⟨rfl, rfl, rfl⟩, rfl, rfl⟩, rfl,
    fun _ => rfl, rfl⟩

end

/-- Settles O52. -/
theorem interruptsAtTheEnd : Obligations.InterruptsAtTheEnd := by
  intro s t hreset hrun
  have henv := runInstruction_env hrun
  rw [step_of_runInstruction hreset hrun, ← State.inputs_eq_of_env henv, ← henv]
  refine ⟨fun hfiq hf => ?fiq, fun hfiq hirq hi => ?irq, fun hfiq hirq => ?none⟩
  case fiq =>
    rw [takeInterrupt_of_fiq hfiq hf]
    exact ⟨_, rfl, takeException_nextInputs .fiq _ t⟩
  case irq =>
    rw [takeInterrupt_of_irq hfiq hirq hi]
    exact ⟨_, rfl, takeException_nextInputs .irq _ t⟩
  case none =>
    rw [takeInterrupt_of_none hfiq hirq]
    rfl

/-! ### The Prefetch Abort -/

/-- An aborted fetch ends in the entry, whatever the word's condition would be (60_exceptions.md R434; D26). -/
theorem runInstruction_of_fetch_abort {s u : State} {f : Option FaultStatus} (hmap : mappingOpen s s.pc = false)
    (hr : reach .fetch s.privileged 4 s.pc s = .abort f u) :
    runInstruction s = .next (takeException .prefetchAbort (s.pc + 4#32) u) := by
  simp only [runInstruction, fetch, hmap, hr, Bool.false_eq_true, if_false]

/-- Settles O53: the entry masks IRQ, so that without FIQ no interrupt follows it in the step. -/
theorem prefetchAborts : Obligations.PrefetchAborts := by
  intro s u f hreset hfiq hmap hr
  have hl := SameButLookup.of_reach_abort hr
  have hnone : takeInterrupt (takeException .prefetchAbort (s.pc + 4#32) u) =
      takeException .prefetchAbort (s.pc + 4#32) u :=
    takeInterrupt_of_none (.inl ((congrArg Inputs.fiqLine (State.inputs_eq_of_env hl.env)).trans hfiq)) (.inr rfl)
  have hstep := step_of_runInstruction hreset (runInstruction_of_fetch_abort hmap hr)
  rw [hnone] at hstep
  exact ⟨_, hstep, (takeException_entered _ _ hl.regs hl.cpsr hl.spsr).nextInputs, hl.cp15, hl.bankHazard,
    ⟨hl.oldMaps, hl.plat, rfl⟩, congrArg List.tail hl.env, hl.memKept⟩

end Sys2Proof.Machine
end

section
/-! PROOF. O54, O56, O57: a step that executes what it fetches, one that the hazard of a User-bank LDM stops, and a reset
(60_exceptions.md R452; 70_reset_and_hazards.md R490, R492, R506). -/

namespace Sys2Proof.Machine

/-! ### The fetched instruction -/

section
variable {s u : State} {r : Reached} {i : Instr}

theorem step_of_fetch_instr (hreset : s.inputs.reset = false) (h : fetch s = .instr i u) :
    step s = endStep (execChecked i u) := by
  simp only [step, hreset, runInstruction, h, Bool.false_eq_true, if_false]

/-- A step whose fetch goes through runs the instruction that the word is decoded to (20_memory.md R92; 60_exceptions.md
R452). -/
theorem step_of_decode (hreset : s.inputs.reset = false) (hmap : mappingOpen s s.pc = false)
    (hr : reach .fetch s.privileged 4 s.pc s = .ok r u) (hstale : staleAt u s.pc r.pa = false)
    (hi : decode (u.mem.readWord (wordCell r.pa)) = .ok i) : step s = endStep (execChecked i u) := by
  refine step_of_fetch_instr hreset ?_
  rw [fetch_of_reach hmap hr hstale, decodeFetched, hi]

/-- With the MMU off no walk is made, so that an access that goes through leaves the state (20_memory.md R105). -/
theorem state_of_reach_mmu_off {kind : AccessKind} {priv : Bool} {n : Nat} {a : Word} (hm : s.cp15.control.m = false)
    (h : reach kind priv n a s = .ok r u) : u = s := by
  simp only [reach, translate_mmu_off hm, Access.bind, externalAbort] at h
  split at h
  · cases h
  · split at h <;> cases h <;> rfl

/-- After a User-bank LDM an instruction that is executed and names a banked register is hazardous (70_reset_and_hazards.md
R506). -/
theorem hazardous_of_banked (hhazard : u.bankHazard = true) (hc : u.cpsr.flags.pass i.cond = true)
    (hbank : ∃ n ∈ namedRegs i, u.cpsr.mode.bank n ≠ Mode.usr.bank n) : hazardous i u = true := by
  have hany : (namedRegs i).any u.cpsr.mode.banked = true :=
    List.any_eq_true.2 (hbank.imp fun _ ⟨hmem, hne⟩ => ⟨hmem, bne_iff_ne.2 hne⟩)
  rw [hazardous, hhazard, hc, hany]
  rfl

end

/-- Settles O56. -/
theorem stepRunsDecoded : Obligations.StepRunsDecoded := by
  intro s u r i hreset hmap hr hstale hi hhazard
  refine ⟨?_, fun hm => ⟨state_of_reach_mmu_off hm hr, pa_of_reach_mmu_off hm hr⟩⟩
  rw [step_of_decode hreset hmap hr hstale hi, execChecked, hhazard]
  rfl

/-- Settles O57: the fetch leaves the hazard, the flags and the mode that the instruction is checked under. -/
theorem bankedAfterUserLoad : Obligations.BankedAfterUserLoad := by
  intro s u r i hreset hmap hr hstale hi hhazard hc hbank
  have hl := SameButLookup.of_reach_ok hr
  rw [← hl.bankHazard] at hhazard
  rw [← hl.cpsr] at hc hbank
  rw [step_of_decode hreset hmap hr hstale hi, execChecked, hazardous_of_banked hhazard hc hbank]
  rfl

/-! ### Reset -/

theorem step_of_reset {s : State} (h : s.inputs.reset = true) : step s = .next (resetEntry (abandon s)).nextInputs := by
  simp only [step, h, if_true]

/-- Settles O54: a reset takes from the state before it only memory, where the abandoned instruction may have left bytes
(`abandon_mem`), the TLB, the parameters and the inputs. -/
theorem resetValues : Obligations.ResetValues := by
  refine ⟨⟨rfl, rfl, rfl, rfl, rfl, rfl, rfl, rfl⟩, fun s hreset => ?_⟩
  have hplat : (abandon s).plat = s.plat := by rw [abandon_eq]; rfl
  have henv : (abandon s).env = s.env := by rw [abandon_eq]; rfl
  exact ⟨_, step_of_reset hreset, rfl, rfl, rfl, rfl, rfl, rfl, rfl, rfl, hplat, congrArg List.tail henv, fun hinv =>
    (abandon_mem hinv.mem fun t ht => (keeps_inv.runInstruction hinv t ht).mem).2⟩

end Sys2Proof.Machine
end

section
/-! PROOF. O35: the swaps that complete (48_swap_swi_imb.md R371; 20_memory.md R91, R114). What a swap leaves is said once, for
either width. -/

namespace Sys2Proof.Machine

/-- A swap that read `x` and wrote `n` cells from `lo` on, having reached `q` in the state `v` of its write, is done: the
register, every other register and every other byte as before (every byte, where it is ROM), the next instruction, what
awaits a barrier, and nothing else (48_swap_swi_imb.md R371). -/
structure SwapDone (rd : Reg) (x : Word) (lo n : Nat) (v : State) (q : Reached) (s t : State) : Prop where
  value   : t.readReg rd = x
  rom     : q.rom = true → MemKept s t
  outside : SameOutside lo n s t
  pc      : t.pc = s.pc + 4#32
  regs    : RegsKept [rd] s t
  flags   : t.cpsr.flags = s.cpsr.flags
  rest    : RestKept s (t.withOldMaps s.oldMaps)
  awaits  : Awaits v q s t

section
variable {rn rd rm : Reg} {lo n : Nat} {s u v : State} {r q : Reached} {m : Memory} (x : Word)

/-- After its write a swap goes on, where there is a next instruction: it ends as a store that writes `x` back to `rd`. With
RAM there the memory is what was written. -/
theorem swap_completes (hl : SameButLookup s v) (hpc : s.pc ≠ 0xFFFFFFFC#32) (hrd : rd ≠ 15#4)
    (hm : ∀ a, ¬ inCells lo n a → m.read a = s.mem.read a) :
    ∃ t, advance ((v.stored q m).setReg rd x) = .next t ∧ SwapDone rd x lo n v q s t ∧ (q.rom = false → t.mem = m) := by
  obtain ⟨t, ht, ⟨hvalue, hnext, hregs, hflags, hrest, houtside, hrom, hawaits⟩, hmem⟩ :=
    store_completes (ix := translateIndexing true) (rn := rd) (r := q) x hl hpc (fun _ => hrd) hm
  exact ⟨t, ht, ⟨hvalue rfl, hrom, houtside, hnext, hregs, hflags, hrest, hawaits⟩, hmem⟩

theorem swapWord_completes (hpc : s.pc ≠ 0xFFFFFFFC#32) (hrd : rd ≠ 15#4) (hwf : s.mem.wf = true)
    (hcheck : s.cp15.control.a = true → (s.readReg rn).extractLsb' 0 2 = 0#2)
    (hr : reach .lockedRead s.privileged 4 (wordAligned (s.readReg rn)) s = .ok r u)
    (hw : reach .write s.privileged 4 (wordAligned (s.readReg rn)) u = .ok q v) :
    ∃ t, swapWord rn rd rm s = .next t ∧
      SwapDone rd (rotateLoaded (s.readReg rn) (s.mem.readWord (wordCell r.pa))) (wordCell q.pa) 4 v q s t ∧
      (q.rom = false → t.mem.readWord (wordCell q.pa) = s.readReg rm) := by
  have hu := SameButLookup.of_reach_ok hr
  have hv := hu.trans (.of_reach_ok hw)
  simp only [swapWord, misalignedWord_and_eq_false hcheck, Bool.false_eq_true, if_false]
  rw [Access.run_ok (loadWord_of_reach hr), Access.run_ok (storeWord_of_reach _ hw), hu.mem, hv.mem]
  obtain ⟨t, ht, hdone, hmem⟩ :=
    swap_completes (rotateLoaded (s.readReg rn) (s.mem.readWord (wordCell r.pa))) hv hpc hrd
      fun _ => s.mem.read_writeWord_outside (wordCell q.pa) (s.readReg rm)
  exact ⟨t, ht, hdone, fun hram => by
    rw [hmem hram, Memory.readWord_writeWord _ _ _ hwf (wordCell_lt_of_reach hw)]⟩

theorem swapByte_completes (hpc : s.pc ≠ 0xFFFFFFFC#32) (hrd : rd ≠ 15#4) (hwf : s.mem.wf = true)
    (hr : reach .lockedRead s.privileged 1 (s.readReg rn) s = .ok r u)
    (hw : reach .write s.privileged 1 (s.readReg rn) u = .ok q v) :
    ∃ t, swapByte rn rd rm s = .next t ∧
      SwapDone rd ((s.mem.read (byteCell s.cp15.control.b r.pa)).setWidth 32) (byteCell s.cp15.control.b q.pa) 1 v q s t ∧
      (q.rom = false → t.mem.read (byteCell s.cp15.control.b q.pa) = (s.readReg rm).extractLsb' 0 8) := by
  have hu := SameButLookup.of_reach_ok hr
  have hv := hu.trans (.of_reach_ok hw)
  rw [swapByte, Access.run_ok (loadByte_of_reach hr), Access.run_ok (storeByte_of_reach _ hw), hu.mem, hu.cp15, hv.mem,
    hv.cp15]
  obtain ⟨t, ht, hdone, hmem⟩ :=
    swap_completes ((s.mem.read (byteCell s.cp15.control.b r.pa)).setWidth 32) hv hpc hrd
      fun _ => s.mem.read_write_outside (byteCell s.cp15.control.b q.pa) ((s.readReg rm).extractLsb' 0 8)
  exact ⟨t, ht, hdone, fun hram => by rw [hmem hram, Memory.read_write_same _ _ _ hwf]⟩

end

/-- Settles O35. -/
theorem swapResult : Obligations.SwapResult := by
  rintro c rn rd rm s u v r q hwf ⟨hc, hpc⟩ hok _ rfl
  rw [exec_swp hc hok, exec_swpb hc hok]
  refine ⟨fun hcheck hr hw => ?word, fun hr hw => ?byte⟩
  case word =>
    obtain ⟨t, ht, hdone, hmem⟩ := swapWord_completes (rm := rm) hpc (swapOk_ne hok) hwf hcheck hr hw
    exact ⟨t, ht, hdone.value, hmem, hdone.rom, hdone.outside, hdone.pc, hdone.regs, hdone.flags, hdone.rest, hdone.awaits⟩
  case byte =>
    obtain ⟨t, ht, hdone, hmem⟩ := swapByte_completes (rm := rm) hpc (swapOk_ne hok) hwf hr hw
    exact ⟨t, ht, hdone.value, hmem, hdone.rom, hdone.outside, hdone.pc, hdone.regs, hdone.flags, hdone.rest, hdone.awaits⟩

end Sys2Proof.Machine
end
